-- ==== Sys2Proof/Word.lean ====
section
/-! DEFINITION. The widths the spec works in (spec/00_scope.md R8 to R10): all values are unsigned bit vectors. -/

namespace Sys2Proof

/-- A byte: one entry of the AES state matrix, one element of GF(2^8) (40_gf.md R120). -/
abbrev Byte := BitVec 8

/-- A 32-bit register, bus value, command word or AES schedule word (00_scope.md R9). -/
abbrev Word := BitVec 32

/-- A 48-bit DES subkey (00_scope.md R8). -/
abbrev Subkey := BitVec 48

/-- A 28-bit C or D half of the DES key schedule (00_scope.md R8). -/
abbrev Half28 := BitVec 28

/-- A 64-bit DES block or key (00_scope.md R8). -/
abbrev Block64 := BitVec 64

end Sys2Proof
end

