-- ==== Sys2Proof/Syntax.lean ====
section
/-! DEFINITION. The commands of the opcode map, spec/30_encoding.md R93: one constructor for each row of
spec/opcode_table.json. -/

namespace Sys2Proof

/-- A command of the engine. The data operands of a command are registers fixed by its opcode; RND, TBL and IDX are the
only immediates (30_encoding.md R91). -/
inductive Instr where
  | nop
  | srst
  | aesKexp
  | aesSubbytes
  | aesInvsubbytes
  | aesShiftrows
  | aesInvshiftrows
  | aesMixcolumns
  | aesInvmixcolumns
  | aesAddroundkey (rnd : BitVec 4)
  | aesEnc
  | aesDec
  | aesRotword
  | aesSubword
  | gfXtime
  | gfMul
  | romRead (tbl : BitVec 4) (idx : BitVec 9)
  | desKexp
  | desIp
  | desFp
  | desF (rnd : BitVec 4)
  | desRound (rnd : BitVec 4)
  | desSwap
  | desEnc
  | desDec
deriving DecidableEq, Repr

end Sys2Proof
end

