-- ==== Sys2Proof/WellFormed.lean ====
section
/-! DEFINITION. Which commands are legal (spec/30_encoding.md R92): the fields' widths are their types; the one further
condition is that ROM_READ names a ROM that exists. -/

namespace Sys2Proof

/-- A legal command: ROM_READ "further requires `tbl ≤ 10`" (30_encoding.md R92); every other term is legal. An index past
the end of a ROM is legal and completes with RANGE (41_rom_tables.md R153). -/
def Instr.wf : Instr → Bool
  | .nop => true
  | .srst => true
  | .aesKexp => true
  | .aesSubbytes => true
  | .aesInvsubbytes => true
  | .aesShiftrows => true
  | .aesInvshiftrows => true
  | .aesMixcolumns => true
  | .aesInvmixcolumns => true
  | .aesAddroundkey _ => true
  | .aesEnc => true
  | .aesDec => true
  | .aesRotword => true
  | .aesSubword => true
  | .gfXtime => true
  | .gfMul => true
  | .romRead tbl _ => tbl.toNat ≤ 10
  | .desKexp => true
  | .desIp => true
  | .desFp => true
  | .desF _ => true
  | .desRound _ => true
  | .desSwap => true
  | .desEnc => true
  | .desDec => true

end Sys2Proof
end

