-- ==== Sys2Proof/Decode.lean ====
section
/-! DEFINITION. Command decoding (spec/30_encoding.md R90 to R96), total on every 32-bit word and rejecting by name, and
the assembler's encoder (R98). -/

namespace Sys2Proof

/-- Why a word is no legal command (30_encoding.md R92, R94). The engine reports each as ILLEGAL_CMD. -/
inductive Reject where
  /-- OPC is not in the map of R93. -/
  | unassignedOpcode
  /-- A field the opcode does not use, or RSV, is not zero. -/
  | unusedFieldNotZero
  /-- ROM_READ with `tbl ≥ 11`. -/
  | romTableIllegal
deriving DecidableEq, Repr

/-- The fields of the one format, 30_encoding.md R90. -/
def opcField (c : Word) : BitVec 8 := c.extractLsb' 0 8
def rndField (c : Word) : BitVec 4 := c.extractLsb' 8 4
def tblField (c : Word) : BitVec 4 := c.extractLsb' 12 4
def idxField (c : Word) : BitVec 9 := c.extractLsb' 16 9
def rsvField (c : Word) : BitVec 7 := c.extractLsb' 25 7

/-- A command that uses no field "requires `cmd[31:8] = 0`" (30_encoding.md R92). -/
def decodePlain (c : Word) (i : Instr) : Except Reject Instr :=
  if rndField c = 0 ∧ tblField c = 0 ∧ idxField c = 0 ∧ rsvField c = 0 then .ok i else .error .unusedFieldNotZero

/-- A command that uses RND requires `TBL = 0`, `IDX = 0`, `RSV = 0` (30_encoding.md R92). -/
def decodeRound (c : Word) (i : BitVec 4 → Instr) : Except Reject Instr :=
  if tblField c = 0 ∧ idxField c = 0 ∧ rsvField c = 0 then .ok (i (rndField c)) else .error .unusedFieldNotZero

/-- ROM_READ "uses TBL and IDX and requires `RND = 0`, `RSV = 0`, and further requires `tbl ≤ 10`" (30_encoding.md R92). -/
def decodeRomRead (c : Word) : Except Reject Instr :=
  if rndField c = 0 ∧ rsvField c = 0 then
    if (tblField c).toNat ≤ 10 then .ok (.romRead (tblField c) (idxField c)) else .error .romTableIllegal
  else .error .unusedFieldNotZero

/-- The command a word stands for, by the opcode map of 30_encoding.md R93; every other word is illegal (R94). -/
def decode (c : Word) : Except Reject Instr :=
  match (opcField c).toNat with
  | 0x00 => decodePlain c .nop
  | 0x01 => decodePlain c .srst
  | 0x10 => decodePlain c .aesKexp
  | 0x11 => decodePlain c .aesSubbytes
  | 0x12 => decodePlain c .aesInvsubbytes
  | 0x13 => decodePlain c .aesShiftrows
  | 0x14 => decodePlain c .aesInvshiftrows
  | 0x15 => decodePlain c .aesMixcolumns
  | 0x16 => decodePlain c .aesInvmixcolumns
  | 0x17 => decodeRound c .aesAddroundkey
  | 0x18 => decodePlain c .aesEnc
  | 0x19 => decodePlain c .aesDec
  | 0x1A => decodePlain c .aesRotword
  | 0x1B => decodePlain c .aesSubword
  | 0x20 => decodePlain c .gfXtime
  | 0x21 => decodePlain c .gfMul
  | 0x30 => decodeRomRead c
  | 0x40 => decodePlain c .desKexp
  | 0x41 => decodePlain c .desIp
  | 0x42 => decodePlain c .desFp
  | 0x43 => decodeRound c .desF
  | 0x44 => decodeRound c .desRound
  | 0x45 => decodePlain c .desSwap
  | 0x46 => decodePlain c .desEnc
  | 0x47 => decodePlain c .desDec
  | _ => .error .unassignedOpcode

/-- `enc(OPC, rnd, tbl, idx) = OPC | rnd << 8 | tbl << 12 | idx << 16` (30_encoding.md R98). -/
def enc (opc : BitVec 8) (rnd tbl : BitVec 4) (idx : BitVec 9) : Word :=
  opc.setWidth 32 ||| (rnd.setWidth 32 <<< 8) ||| (tbl.setWidth 32 <<< 12) ||| (idx.setWidth 32 <<< 16)

/-- The opcode of a command, 30_encoding.md R93. -/
def Instr.opcode : Instr → BitVec 8
  | .nop => 0x00
  | .srst => 0x01
  | .aesKexp => 0x10
  | .aesSubbytes => 0x11
  | .aesInvsubbytes => 0x12
  | .aesShiftrows => 0x13
  | .aesInvshiftrows => 0x14
  | .aesMixcolumns => 0x15
  | .aesInvmixcolumns => 0x16
  | .aesAddroundkey _ => 0x17
  | .aesEnc => 0x18
  | .aesDec => 0x19
  | .aesRotword => 0x1A
  | .aesSubword => 0x1B
  | .gfXtime => 0x20
  | .gfMul => 0x21
  | .romRead _ _ => 0x30
  | .desKexp => 0x40
  | .desIp => 0x41
  | .desFp => 0x42
  | .desF _ => 0x43
  | .desRound _ => 0x44
  | .desSwap => 0x45
  | .desEnc => 0x46
  | .desDec => 0x47

/-- The word of a command (30_encoding.md R98): unused fields are zero (R92). -/
def encode (i : Instr) : Word :=
  match i with
  | .aesAddroundkey rnd => enc i.opcode rnd 0 0
  | .desF rnd => enc i.opcode rnd 0 0
  | .desRound rnd => enc i.opcode rnd 0 0
  | .romRead tbl idx => enc i.opcode 0 tbl idx
  | .nop | .srst | .aesKexp | .aesSubbytes | .aesInvsubbytes | .aesShiftrows | .aesInvshiftrows | .aesMixcolumns
  | .aesInvmixcolumns | .aesEnc | .aesDec | .aesRotword | .aesSubword | .gfXtime | .gfMul | .desKexp | .desIp | .desFp
  | .desSwap | .desEnc | .desDec => enc i.opcode 0 0 0

/-- The host's numbering: a command is one 32-bit value with bit 0 its least significant bit (30_encoding.md R90). The bits
above `nbits` are 0; a value with a bit at 32 or above is no command word. -/
def decodeTableWord (nbits w : Nat) : Option Instr :=
  if w % 2 ^ nbits < 2 ^ 32 then (decode (BitVec.ofNat 32 (w % 2 ^ nbits))).toOption else none

end Sys2Proof
end

