-- ==== Sys2Proof/Machine/State.lean ====
section
/-! DEFINITION. The state of the block (spec/10_state.md R20), the outside events a step reads, the reasons a step can
stop, and the state after reset (R38). -/

namespace Sys2Proof.Machine

/-- The reasons a step can stop with a fault. There are none: the block has no trap and no undefined behaviour that stops
it; every error completes with a code in STATUS.ERR (60_exceptions.md R320, R332). -/
inductive Fault
deriving DecidableEq, Repr

/-- The reasons a step can be refused. -/
inductive Refusal where
  /-- The command of this mnemonic has no meaning in the model. Raised only by an arm of `exec` that names it; safe: the
  model stops where the hardware goes on. No arm raises it. -/
  | notModelled (mnemonic : String)
deriving DecidableEq, Repr

/-- The answer of a step or a meaning. -/
abbrev Out (σ : Type) := Host.Outcome σ Fault Refusal

/-- What the outside world does to the block: the host's two bus operations (20_memory.md R60), its polling loop
(30_encoding.md R99) and the environment's reset (70_reset_and_hazards.md R361). `width` is the access width in bits. -/
inductive Event where
  | read (off : BitVec 12) (width : Nat)
  | write (off : BitVec 12) (width : Nat) (v : Word)
  | poll
  | reset
deriving DecidableEq, Repr

/-- The error codes of 60_exceptions.md R320. Codes 7..15 are reserved and never written. -/
inductive ErrCode where
  | none
  | keyLength
  | unsupportedMode
  /-- Reserved for the host driver; the engine never writes it (R324). -/
  | blockAlignment
  | illegalCmd
  | noSchedule
  | range
deriving DecidableEq, Repr

/-- The registers of the host window, 20_memory.md R62. -/
inductive Reg where
  | id
  | ctrl
  | cmd
  | status
  | key (i : Fin 8)
  | state (c : Fin 4)
  | dstate (h : Fin 2)
  | opa
  | res
  | w (i : Fin 60)
  | dkh (k : Fin 16)
  | dkl (k : Fin 16)
deriving DecidableEq, Repr

/-- The complete state of the block, 10_state.md R20 (`ctrl` to `pending`), and after it the model's own fields: the fault
record, the outside events to come, what the reads returned, and the counters of the free values (log 2, 3, 4, 8, 9).
ID and the ROMs are constants and STATUS is composed from its fields (R22, R25, R35). -/
structure State where
  /-- CTRL (R23): KLEN in bits 5:0, DSTRAT in bits 9:8. -/
  ctrl : Word
  /-- CMD (R24): the last accepted command word. -/
  cmd : Word
  /-- KEY[0..7] (R26). -/
  key : Vector Word 8
  /-- STATE[0..3] (R27): column c of the AES state, row 0 in the most significant byte. -/
  state : Vector Word 4
  /-- DSTATE[0..1] (R28): the halves L and R. -/
  dstate : Vector Word 2
  /-- OPA (R29). -/
  opa : Word
  /-- RES (R30). -/
  res : Word
  /-- W[0..59], the AES key schedule (R31). -/
  w : Vector Word 60
  /-- DK[0..15], the DES subkeys (R32). -/
  dk : Vector Subkey 16
  /-- AKV: an AES schedule is valid (R33). -/
  akv : Bool
  /-- NR: the AES round count latched with it (R33). -/
  nr : BitVec 4
  /-- DKV: a DES schedule is valid (R34). -/
  dkv : Bool
  /-- DSTRAT_L: the DES strategy latched with it (R34). -/
  dstratL : BitVec 2
  /-- BERR: sticky, a host access was a bus error (R25). -/
  berr : Bool
  /-- OVR: sticky, a host write was dropped while busy (R25). -/
  ovr : Bool
  /-- ERR: the code of the last completed command (R25). -/
  err : BitVec 4
  /-- BUSY (R25, R36). -/
  busy : Bool
  /-- PENDING: the accepted command not yet completed (R36). -/
  pending : Option Word
  /-- Model's own (log 8): an error completion, a bus error or a dropped write has happened; never cleared. -/
  ghostFault : Bool
  /-- Model's own (log 2): the outside events to come, first event first. -/
  events : List Event
  /-- Model's own (log 9): what host reads returned, newest first. -/
  returned : List Word
  /-- Model's own (log 3): how many more events go before the pending command's engine step. -/
  wait : Nat
  /-- Model's own (log 3): latencies chosen for the commands still to be accepted. -/
  latencyPlan : List Nat
  /-- Model's own (log 3): the argument of the next `Config.cmdLatency`. -/
  accepted : Nat
  /-- Model's own (log 4): the argument of the next `Config.busyRead`. -/
  draws : Nat
deriving DecidableEq, Repr

/-- The state after reset, 10_state.md R38, with nothing to come from outside and the counters at 0. -/
def State.reset : State where
  ctrl := 0
  cmd := 0
  key := #v[0, 0, 0, 0, 0, 0, 0, 0]
  state := #v[0, 0, 0, 0]
  dstate := #v[0, 0]
  opa := 0
  res := 0
  w := ⟨⟨List.replicate 60 0⟩, rfl⟩
  dk := ⟨⟨List.replicate 16 0⟩, rfl⟩
  akv := false
  nr := 0
  dkv := false
  dstratL := 0
  berr := false
  ovr := false
  err := 0
  busy := false
  pending := none
  ghostFault := false
  events := []
  returned := []
  wait := 0
  latencyPlan := []
  accepted := 0
  draws := 0

end Sys2Proof.Machine
end

