-- ==== Sys2Proof/Machine/Flags.lean ====
section
/-! DEFINITION. The flags: the STATUS word and its write-1-to-clear bits (spec/10_state.md R25, R37) and the error codes
(spec/60_exceptions.md R320). No command sets a flag from its data (R37). -/

namespace Sys2Proof.Machine

/-- The 4-bit code of an error, 60_exceptions.md R320. -/
def ErrCode.code : ErrCode → BitVec 4
  | .none => 0
  | .keyLength => 1
  | .unsupportedMode => 2
  | .blockAlignment => 3
  | .illegalCmd => 4
  | .noSchedule => 5
  | .range => 6

/-- `STATUS = zext_32(DSTRAT_L || NR || ERR || 000 || OVR || BERR || DKV || AKV || BUSY)` (10_state.md R25). -/
def statusWord (s : State) : Word :=
  (s.dstratL ++ s.nr ++ s.err ++ 0#3 ++ BitVec.ofBool s.ovr ++ BitVec.ofBool s.berr ++ BitVec.ofBool s.dkv
    ++ BitVec.ofBool s.akv ++ BitVec.ofBool s.busy).setWidth 32

/-- A host write `v` to STATUS: "if v[3] = 1 then BERR <- 0; if v[4] = 1 then OVR <- 0; all other bits of `v` are
ignored" (10_state.md R25). -/
def clearSticky (v : Word) (s : State) : State :=
  { s with berr := s.berr && !v.getLsbD 3, ovr := s.ovr && !v.getLsbD 4 }

/-- A bus error sets BERR (20_memory.md R67); it is recorded as a fault (93_implementation_defined.md U3, log 8). -/
def setBerr (s : State) : State := { s with berr := true, ghostFault := true }

/-- A dropped write sets OVR (70_reset_and_hazards.md R368); it is recorded as a fault (U4, log 8). -/
def setOvr (s : State) : State := { s with ovr := true, ghostFault := true }

end Sys2Proof.Machine
end

