-- ==== Sys2Proof/Config.lean ====
section
/-! DEFINITION. The values the spec leaves open. Each is a constant with no body, so nothing can be proved about its value
and a statement that mentions one holds whatever it is. -/

namespace Sys2Proof

/-- `BUSY_READ` (00_scope.md R9, 70_reset_and_hazards.md R370): what a host read of a datapath register returns while
`BUSY = 1`, "any 32-bit value, under no law". Applied to the counter `State.draws`, so each read has a draw of its own.
Log 4. -/
opaque Config.busyRead : Nat → Word

/-- `CMD_LATENCY` (00_scope.md R9, 70_reset_and_hazards.md R372): how many host events go between the acceptance of a
command and its engine step, "any finite number, different for each command and each execution, including zero".
Applied to the counter `State.accepted`. Log 3. -/
opaque Config.cmdLatency : Nat → Nat

/-- A schedule word `W[i]` with `i ≥ 60`, which does not exist (10_state.md R31). It is asked for only in states with
`NR = 15`, which the spec says do not occur (10_state.md R25). Log 5. -/
opaque Config.absentScheduleWord : Nat → Word

/-- The Feistel function under strategy 3, to which the spec gives no value: "`Feistel` is never applied with strat = 3"
(45_des_feistel.md R244). Log 6. -/
opaque Config.reservedFeistel : Word → Subkey → Word

end Sys2Proof
end

