-- ==== Sys2Proof/Machine/Operands.lean ====
section
/-! DEFINITION. The operand forms of the commands: bytes of a word and packing (spec/00_scope.md R12, R14), bit
permutation (R11), and the views of the registers that spec/10_state.md R23 and R26 to R32 give. -/

namespace Sys2Proof.Machine

/-! ## Bytes, words and bit positions -/

/-- "byte r of word w" is `w[31-8r : 24-8r]` (00_scope.md R14). -/
def byteOf (w : Word) (r : Fin 4) : Byte := w.extractLsb' (24 - 8 * r.val) 8

/-- The word `b 0 || b 1 || b 2 || b 3`, `b 0` most significant (00_scope.md R12, R14). -/
def packWord (b : Fin 4 → Byte) : Word := b 0 ++ b 1 ++ b 2 ++ b 3

/-- Four columns as the four STATE registers. -/
def columns (f : Fin 4 → Word) : Vector Word 4 := #v[f 0, f 1, f 2, f 3]

/-- `n` entries: those of `l`, and `d` for every entry beyond them (42_aes_key_schedule.md R176 writes W so). -/
def padTo (n : Nat) (d : α) (l : List α) : Vector α n := ⟨⟨(l ++ List.replicate n d).take n⟩, by simp⟩

/-- `Permute(x, T, n)` of 00_scope.md R11: position j of the result, counted from 1 at the most significant bit, is
position `T[j]` of x. -/
def permute (m : Nat) (table : List Nat) (x : BitVec n) : BitVec m :=
  BitVec.ofNat m (table.foldl (fun acc p => 2 * acc + (x.getMsbD (p - 1)).toNat) 0)

/-! ## CTRL (10_state.md R23) -/

/-- `CTRL.KLEN = CTRL[5:0]`. -/
def klen (s : State) : BitVec 6 := s.ctrl.extractLsb' 0 6

/-- `CTRL.DSTRAT = CTRL[9:8]`. -/
def dstrat (s : State) : BitVec 2 := s.ctrl.extractLsb' 8 2

/-! ## KEY (10_state.md R26) -/

/-- The first `nk` words of the AES key: `KEY[i] = BE(key[4i .. 4i+3])`. -/
def aesKeyWords (s : State) (nk : Nat) : List Word := s.key.toList.take nk

/-- "The DES key is bytes 0..7, that is `KEY[0] || KEY[1]`." -/
def desKey (s : State) : Block64 := s.key[0] ++ s.key[1]

/-! ## OPA (10_state.md R29) -/

/-- `A = OPA[7:0]`. -/
def opaA (s : State) : Byte := s.opa.extractLsb' 0 8

/-- `B = OPA[15:8]`. -/
def opaB (s : State) : Byte := s.opa.extractLsb' 8 8

/-! ## The AES state (10_state.md R27, 44_aes_round.md R208) -/

/-- `s[r][c] = STATE[c][31-8r : 24-8r]`. -/
def stateByte (st : Vector Word 4) (r c : Fin 4) : Byte := byteOf st[c] r

/-- The state with the given matrix: `STATE[c] <- s[0][c] || s[1][c] || s[2][c] || s[3][c]`. -/
def fromMatrix (f : Fin 4 → Fin 4 → Byte) : Vector Word 4 := columns fun c => packWord fun r => f r c

/-! ## DSTATE (10_state.md R28) -/

/-- `D = DSTATE[0] || DSTATE[1]`. -/
def desData (s : State) : Block64 := s.dstate[0] ++ s.dstate[1]

/-- The halves L and R as the two DSTATE registers. -/
def halves (l r : Word) : Vector Word 2 := #v[l, r]

/-- `DSTATE[0] <- D[63:32]; DSTATE[1] <- D[31:0]`. -/
def splitData (d : Block64) : Vector Word 2 := halves (d.extractLsb' 32 32) (d.extractLsb' 0 32)

/-! ## The schedule memories (10_state.md R31, R32) -/

/-- `W[i]`; an entry at or beyond 60 does not exist (log 5). -/
def scheduleWord (w : Vector Word 60) (i : Nat) : Word := if h : i < 60 then w[i] else Config.absentScheduleWord i

/-- `DK[k]` for the field RND, "Every k in 0..15 is in range" (45_des_feistel.md R252). -/
def subkey (s : State) (k : BitVec 4) : Subkey := s.dk[k.toNat]'k.isLt

/-- `DKH[k] = zext_32(DK[k][47:32])`. -/
def dkHigh (k : Subkey) : Word := (k.extractLsb' 32 16).setWidth 32

/-- `DKL[k] = DK[k][31:0]`. -/
def dkLow (k : Subkey) : Word := k.extractLsb' 0 32

end Sys2Proof.Machine
end

