-- ==== Sys2Proof/Machine/Ops.lean ====
section
/-! DEFINITION. The operations the meanings and the step share: completing a command and raising an error
(spec/60_exceptions.md R330, R331), reset (spec/70_reset_and_hazards.md R361), the register window (spec/20_memory.md
R62) and the two bus operations (R60, R65 to R67). -/

namespace Sys2Proof.Machine

/-! ## Completion -/

/-- `complete(e)`, after the command's writes: "`ERR <- e`, `PENDING <- none`, `BUSY <- 0`" (60_exceptions.md R330). An
error is recorded as a fault (93_implementation_defined.md U1, U2, log 8). -/
def complete (e : ErrCode) (s : State) : State :=
  { s with err := e.code, pending := none, busy := false, ghostFault := s.ghostFault || decide (e ≠ .none) }

/-- A command that succeeds: its writes are in `s`, and it completes with `ERR = 0` (60_exceptions.md R320, R330). -/
def finish (s : State) : Out State := .next (complete .none s)

/-- Taking an error, the only exception the block has: `raise E` is `complete(E)` with every write of the command
discarded, so it is applied to the state before the command (00_scope.md R13, 60_exceptions.md R331). Nothing is saved, no
mode changes and control goes nowhere (R332); there is no return from it (R333). -/
def raise (e : ErrCode) (s : State) : Out State := .next (complete e s)

/-- Every piece of the block's state takes its reset value (10_state.md R38, 70_reset_and_hazards.md R361); the model's own
fields keep theirs, but for `wait`, which belongs to the discarded command (log 17). -/
def hardReset (s : State) : State :=
  { State.reset with
    ghostFault := s.ghostFault
    events := s.events
    returned := s.returned
    latencyPlan := s.latencyPlan
    accepted := s.accepted
    draws := s.draws }

/-! ## The register window -/

/-- `ID`, ASCII "CORE" (10_state.md R22). -/
def idWord : Word := 0x434F5245

/-- The bits of CTRL that are stored: "A host write `v` to CTRL stores `v & 0x0000033F`" (10_state.md R23). -/
def ctrlMask : Word := 0x0000033F

/-- The register at an offset that is a multiple of 4, the table of 20_memory.md R62; "every offset not listed is
unmapped". -/
def regAt (off : Nat) : Option Reg :=
  if off = 0x000 then some .id
  else if off = 0x004 then some .ctrl
  else if off = 0x008 then some .cmd
  else if off = 0x00C then some .status
  else if off < 0x030 then some (.key (Fin.ofNat 8 ((off - 0x010) / 4)))
  else if off < 0x040 then some (.state (Fin.ofNat 4 ((off - 0x030) / 4)))
  else if off = 0x040 then some (.dstate 0)
  else if off = 0x044 then some (.dstate 1)
  else if off = 0x048 then some .opa
  else if off = 0x04C then some .res
  else if off < 0x100 then none
  else if off < 0x1F0 then some (.w (Fin.ofNat 60 ((off - 0x100) / 4)))
  else if off < 0x200 then none
  else if off < 0x280 then
    if off % 8 = 0 then some (.dkh (Fin.ofNat 16 ((off - 0x200) / 8)))
    else some (.dkl (Fin.ofNat 16 ((off - 0x204) / 8)))
  else none

/-- The offset of a register, 20_memory.md R62. -/
def Reg.offset : Reg → BitVec 12
  | .id => 0x000
  | .ctrl => 0x004
  | .cmd => 0x008
  | .status => 0x00C
  | .key i => BitVec.ofNat 12 (0x010 + 4 * i.val)
  | .state c => BitVec.ofNat 12 (0x030 + 4 * c.val)
  | .dstate h => BitVec.ofNat 12 (0x040 + 4 * h.val)
  | .opa => 0x048
  | .res => 0x04C
  | .w i => BitVec.ofNat 12 (0x100 + 4 * i.val)
  | .dkh k => BitVec.ofNat 12 (0x200 + 8 * k.val)
  | .dkl k => BitVec.ofNat 12 (0x204 + 8 * k.val)

/-- The read-only registers a write to which is a bus error: "ID, RES, W[i], DKH[k], DKL[k]" (20_memory.md R67). -/
def Reg.readOnly : Reg → Bool
  | .id | .res | .w _ | .dkh _ | .dkl _ => true
  | .ctrl | .cmd | .status | .key _ | .state _ | .dstate _ | .opa => false

/-- The registers whose read while `BUSY = 1` is a draw: "STATE[0..3], DSTATE[0..1], RES, W[i], DKH[k], DKL[k]"
(70_reset_and_hazards.md R370). -/
def Reg.datapath : Reg → Bool
  | .state _ | .dstate _ | .res | .w _ | .dkh _ | .dkl _ => true
  | .id | .ctrl | .cmd | .status | .key _ | .opa => false

/-- The stored value of a register, 20_memory.md R62; ID is hard-wired and STATUS is composed. -/
def readReg (r : Reg) (s : State) : Word :=
  match r with
  | .id => idWord
  | .ctrl => s.ctrl
  | .cmd => s.cmd
  | .status => statusWord s
  | .key i => s.key[i]
  | .state c => s.state[c]
  | .dstate h => s.dstate[h]
  | .opa => s.opa
  | .res => s.res
  | .w i => s.w[i]
  | .dkh k => dkHigh s.dk[k]
  | .dkl k => dkLow s.dk[k]

/-- The latency of the next accepted command (70_reset_and_hazards.md R372): the plan's next entry, or the free value
`CMD_LATENCY` when the plan says nothing (log 3). -/
def nextLatency (s : State) : Nat :=
  match s.latencyPlan with
  | [] => Config.cmdLatency s.accepted
  | n :: _ => n

/-- Acceptance: a write of `c` to CMD while idle "sets `CMD <- c`, `PENDING <- c`, `BUSY <- 1`" and changes nothing else
(70_reset_and_hazards.md R369); the model draws the command's latency (log 3). -/
def acceptCmd (c : Word) (s : State) : State :=
  { s with
    cmd := c
    pending := some c
    busy := true
    wait := nextLatency s
    latencyPlan := s.latencyPlan.tail
    accepted := s.accepted + 1 }

/-- What a write of `v` to a register does while idle, 10_state.md R23 to R29. A read-only register stores nothing: its
write is the bus error of `hostWrite`. -/
def writeReg (r : Reg) (v : Word) (s : State) : State :=
  match r with
  | .ctrl => { s with ctrl := v &&& ctrlMask }
  | .cmd => acceptCmd v s
  | .status => clearSticky v s
  | .key i => { s with key := s.key.set i v }
  | .state c => { s with state := s.state.set c v }
  | .dstate h => { s with dstate := s.dstate.set h v }
  | .opa => { s with opa := v }
  | .id | .res | .w _ | .dkh _ | .dkl _ => s

/-! ## The bus operations -/

/-- The register a read reaches: "32 bits wide and at an offset that is a multiple of 4" (20_memory.md R65) and mapped
(R62); none is a bus error (R67). -/
def readTarget (off : BitVec 12) (width : Nat) : Option Reg :=
  if width = 32 ∧ off.toNat % 4 = 0 then regAt off.toNat else none

/-- The register a write reaches: as for a read, and not read-only (20_memory.md R67). -/
def writeTarget (off : BitVec 12) (width : Nat) : Option Reg :=
  match readTarget off width with
  | some r => if r.readOnly then none else some r
  | none => none

/-- `HostRead(off)`: a bus error "returns 0x00000000 and sets `BERR <- 1`" (20_memory.md R67); a datapath register read
while `BUSY = 1` returns a draw (70_reset_and_hazards.md R370, log 4). -/
def hostRead (off : BitVec 12) (width : Nat) (s : State) : Word × State :=
  match readTarget off width with
  | none => (0, setBerr s)
  | some r =>
    if s.busy && r.datapath then (Config.busyRead s.draws, { s with draws := s.draws + 1 })
    else (readReg r s, s)

/-- `HostWrite(off, v)`: while `BUSY = 1` it "is dropped: it changes no state except `OVR <- 1` (and `BERR <- 1` as well
if the access is also a bus error)" (70_reset_and_hazards.md R368); a bus error changes only BERR (20_memory.md R67). -/
def hostWrite (off : BitVec 12) (width : Nat) (v : Word) (s : State) : State :=
  match writeTarget off width with
  | none => if s.busy then setOvr (setBerr s) else setBerr s
  | some r => if s.busy then setOvr s else writeReg r v s

/-- A read whose value the host keeps (log 9). -/
def recordRead (off : BitVec 12) (width : Nat) (s : State) : State :=
  { (hostRead off width s).2 with returned := (hostRead off width s).1 :: s.returned }

/-- One outside event, on the state whose list of events is already past it. `POLL` is "RD STATUS; if result[0] = 1 goto
loop" (30_encoding.md R99): while BUSY is read as 1 it stands at the head of the events again. -/
def perform (e : Event) (s : State) : State :=
  match e with
  | .read off width => recordRead off width s
  | .write off width v => hostWrite off width v s
  | .poll =>
    let t := recordRead (Reg.offset .status) 32 s
    if (statusWord s).getLsbD 0 then { t with events := .poll :: t.events } else t
  | .reset => hardReset s

end Sys2Proof.Machine
end

