-- ==== Sys2Proof/Machine/Rom.lean ====
section
/-! DEFINITION. The eleven constant ROMs and ROM_READ, spec/41_rom_tables.md. The tables are the spec's own listings
(log 7). -/

namespace Sys2Proof.Machine

/-! ## The contents -/

/-- AES_SBOX, 41_rom_tables.md R141: row `x[7:4]`, sixteen bytes a row, column 0 leftmost. -/
def sboxRows : List Nat :=
  [0x637C777BF26B6FC53001672BFED7AB76,
   0xCA82C97DFA5947F0ADD4A2AF9CA472C0,
   0xB7FD9326363FF7CC34A5E5F171D83115,
   0x04C723C31896059A071280E2EB27B275,
   0x09832C1A1B6E5AA0523BD6B329E32F84,
   0x53D100ED20FCB15B6ACBBE394A4C58CF,
   0xD0EFAAFB434D338545F9027F503C9FA8,
   0x51A3408F929D38F5BCB6DA2110FFF3D2,
   0xCD0C13EC5F974417C4A77E3D645D1973,
   0x60814FDC222A908846EEB814DE5E0BDB,
   0xE0323A0A4906245CC2D3AC629195E479,
   0xE7C8376D8DD54EA96C56F4EA657AAE08,
   0xBA78252E1CA6B4C6E8DD741F4BBD8B8A,
   0x703EB5664803F60E613557B986C11D9E,
   0xE1F8981169D98E949B1E87E9CE5528DF,
   0x8CA1890DBFE6426841992D0FB054BB16]

/-- AES_INV_SBOX, 41_rom_tables.md R143, laid out as `sboxRows`. -/
def invSboxRows : List Nat :=
  [0x52096AD53036A538BF40A39E81F3D7FB,
   0x7CE339829B2FFF87348E4344C4DEE9CB,
   0x547B9432A6C2233DEE4C950B42FAC34E,
   0x082EA16628D924B2765BA2496D8BD125,
   0x72F8F66486689816D4A45CCC5D65B692,
   0x6C704850FDEDB9DA5E154657A78D9D84,
   0x90D8AB008CBCD30AF7E45805B8B34506,
   0xD02C1E8FCA3F0F02C1AFBD0301138A6B,
   0x3A9111414F67DCEA97F2CFCEF0B4E673,
   0x96AC7422E7AD3585E2F937E81C75DF6E,
   0x47F11A711D29C5896FB7620EAA18BE1B,
   0xFC563E4BC6D279209ADBC0FE78CD5AF4,
   0x1FDDA8338807C731B11210592780EC5F,
   0x60517FA919B54A0D2DE57A9F93C99CEF,
   0xA0E03B4DAE2AF5B0C8EBBB3C83539961,
   0x172B047EBA77D626E169146355210C7D]

/-- DES_IP, 41_rom_tables.md R145: entry j is the source position of output position j, counted from 1. -/
def desIpTable : List Nat :=
  [58, 50, 42, 34, 26, 18, 10, 2,
   60, 52, 44, 36, 28, 20, 12, 4,
   62, 54, 46, 38, 30, 22, 14, 6,
   64, 56, 48, 40, 32, 24, 16, 8,
   57, 49, 41, 33, 25, 17, 9, 1,
   59, 51, 43, 35, 27, 19, 11, 3,
   61, 53, 45, 37, 29, 21, 13, 5,
   63, 55, 47, 39, 31, 23, 15, 7]

/-- DES_FP, 41_rom_tables.md R146: entry j is the source position of output position j, counted from 1. -/
def desFpTable : List Nat :=
  [40, 8, 48, 16, 56, 24, 64, 32,
   39, 7, 47, 15, 55, 23, 63, 31,
   38, 6, 46, 14, 54, 22, 62, 30,
   37, 5, 45, 13, 53, 21, 61, 29,
   36, 4, 44, 12, 52, 20, 60, 28,
   35, 3, 43, 11, 51, 19, 59, 27,
   34, 2, 42, 10, 50, 18, 58, 26,
   33, 1, 41, 9, 49, 17, 57, 25]

/-- DES_PC1, 41_rom_tables.md R147: entry j is the source position of output position j, counted from 1. -/
def desPc1Table : List Nat :=
  [57, 49, 41, 33, 25, 17, 9,
   1, 58, 50, 42, 34, 26, 18,
   10, 2, 59, 51, 43, 35, 27,
   19, 11, 3, 60, 52, 44, 36,
   63, 55, 47, 39, 31, 23, 15,
   7, 62, 54, 46, 38, 30, 22,
   14, 6, 61, 53, 45, 37, 29,
   21, 13, 5, 28, 20, 12, 4]

/-- DES_PC2, 41_rom_tables.md R148: entry j is the source position of output position j, counted from 1. -/
def desPc2Table : List Nat :=
  [14, 17, 11, 24, 1, 5,
   3, 28, 15, 6, 21, 10,
   23, 19, 12, 4, 26, 8,
   16, 7, 27, 20, 13, 2,
   41, 52, 31, 37, 47, 55,
   30, 40, 51, 45, 33, 48,
   44, 49, 39, 56, 34, 53,
   46, 42, 50, 36, 29, 32]

/-- DES_E, 41_rom_tables.md R149: entry j is the source position of output position j, counted from 1. -/
def desETable : List Nat :=
  [32, 1, 2, 3, 4, 5,
   4, 5, 6, 7, 8, 9,
   8, 9, 10, 11, 12, 13,
   12, 13, 14, 15, 16, 17,
   16, 17, 18, 19, 20, 21,
   20, 21, 22, 23, 24, 25,
   24, 25, 26, 27, 28, 29,
   28, 29, 30, 31, 32, 1]

/-- DES_P, 41_rom_tables.md R150: entry j is the source position of output position j, counted from 1. -/
def desPTable : List Nat :=
  [16, 7, 20, 21, 29, 12, 28, 17,
   1, 15, 23, 26, 5, 18, 31, 10,
   2, 8, 24, 14, 32, 27, 3, 9,
   19, 13, 30, 6, 22, 11, 4, 25]

/-- S1, 41_rom_tables.md R152: rows 0 to 3, columns 0 to 15. -/
def desS1 : List Nat :=
  [14, 4, 13, 1, 2, 15, 11, 8, 3, 10, 6, 12, 5, 9, 0, 7,
   0, 15, 7, 4, 14, 2, 13, 1, 10, 6, 12, 11, 9, 5, 3, 8,
   4, 1, 14, 8, 13, 6, 2, 11, 15, 12, 9, 7, 3, 10, 5, 0,
   15, 12, 8, 2, 4, 9, 1, 7, 5, 11, 3, 14, 10, 0, 6, 13]

/-- S2, 41_rom_tables.md R152: rows 0 to 3, columns 0 to 15. -/
def desS2 : List Nat :=
  [15, 1, 8, 14, 6, 11, 3, 4, 9, 7, 2, 13, 12, 0, 5, 10,
   3, 13, 4, 7, 15, 2, 8, 14, 12, 0, 1, 10, 6, 9, 11, 5,
   0, 14, 7, 11, 10, 4, 13, 1, 5, 8, 12, 6, 9, 3, 2, 15,
   13, 8, 10, 1, 3, 15, 4, 2, 11, 6, 7, 12, 0, 5, 14, 9]

/-- S3, 41_rom_tables.md R152: rows 0 to 3, columns 0 to 15. -/
def desS3 : List Nat :=
  [10, 0, 9, 14, 6, 3, 15, 5, 1, 13, 12, 7, 11, 4, 2, 8,
   13, 7, 0, 9, 3, 4, 6, 10, 2, 8, 5, 14, 12, 11, 15, 1,
   13, 6, 4, 9, 8, 15, 3, 0, 11, 1, 2, 12, 5, 10, 14, 7,
   1, 10, 13, 0, 6, 9, 8, 7, 4, 15, 14, 3, 11, 5, 2, 12]

/-- S4, 41_rom_tables.md R152: rows 0 to 3, columns 0 to 15. -/
def desS4 : List Nat :=
  [7, 13, 14, 3, 0, 6, 9, 10, 1, 2, 8, 5, 11, 12, 4, 15,
   13, 8, 11, 5, 6, 15, 0, 3, 4, 7, 2, 12, 1, 10, 14, 9,
   10, 6, 9, 0, 12, 11, 7, 13, 15, 1, 3, 14, 5, 2, 8, 4,
   3, 15, 0, 6, 10, 1, 13, 8, 9, 4, 5, 11, 12, 7, 2, 14]

/-- S5, 41_rom_tables.md R152: rows 0 to 3, columns 0 to 15. -/
def desS5 : List Nat :=
  [2, 12, 4, 1, 7, 10, 11, 6, 8, 5, 3, 15, 13, 0, 14, 9,
   14, 11, 2, 12, 4, 7, 13, 1, 5, 0, 15, 10, 3, 9, 8, 6,
   4, 2, 1, 11, 10, 13, 7, 8, 15, 9, 12, 5, 6, 3, 0, 14,
   11, 8, 12, 7, 1, 14, 2, 13, 6, 15, 0, 9, 10, 4, 5, 3]

/-- S6, 41_rom_tables.md R152: rows 0 to 3, columns 0 to 15. -/
def desS6 : List Nat :=
  [12, 1, 10, 15, 9, 2, 6, 8, 0, 13, 3, 4, 14, 7, 5, 11,
   10, 15, 4, 2, 7, 12, 9, 5, 6, 1, 13, 14, 0, 11, 3, 8,
   9, 14, 15, 5, 2, 8, 12, 3, 7, 0, 4, 10, 1, 13, 11, 6,
   4, 3, 2, 12, 9, 5, 15, 10, 11, 14, 1, 7, 6, 0, 8, 13]

/-- S7, 41_rom_tables.md R152: rows 0 to 3, columns 0 to 15. -/
def desS7 : List Nat :=
  [4, 11, 2, 14, 15, 0, 8, 13, 3, 12, 9, 7, 5, 10, 6, 1,
   13, 0, 11, 7, 4, 9, 1, 10, 14, 3, 5, 12, 2, 15, 8, 6,
   1, 4, 11, 13, 12, 3, 7, 14, 10, 15, 6, 8, 0, 5, 9, 2,
   6, 11, 13, 8, 1, 4, 10, 7, 9, 5, 0, 15, 14, 2, 3, 12]

/-- S8, 41_rom_tables.md R152: rows 0 to 3, columns 0 to 15. -/
def desS8 : List Nat :=
  [13, 2, 8, 4, 6, 15, 11, 1, 10, 9, 3, 14, 5, 0, 12, 7,
   1, 15, 13, 8, 10, 3, 7, 4, 12, 5, 6, 11, 0, 14, 9, 2,
   7, 11, 4, 1, 9, 12, 14, 2, 0, 6, 10, 13, 15, 3, 5, 8,
   2, 1, 14, 7, 4, 10, 8, 13, 15, 12, 9, 0, 3, 5, 6, 11]

/-- AES_RCON, 41_rom_tables.md R144. -/
def aesRcon : List Nat := [0x00, 0x01, 0x02, 0x04, 0x08, 0x10, 0x20, 0x40, 0x80, 0x1B, 0x36]

/-- DES_SHIFTS, 41_rom_tables.md R151. -/
def desShifts : List Nat := [1, 1, 2, 2, 2, 2, 2, 2, 1, 2, 2, 2, 2, 2, 2, 1]

/-- DES_SBOX, the eight S-boxes one after another: "ROM index `= 64·i + 16·row + column`" (41_rom_tables.md R152). -/
def desSboxTable : List Nat := desS1 ++ desS2 ++ desS3 ++ desS4 ++ desS5 ++ desS6 ++ desS7 ++ desS8

/-! ## Reading an entry -/

/-- The byte at row `x[7:4]`, column `x[3:0]` of a table of sixteen-byte rows. -/
def rowsByte (rows : List Nat) (x : Byte) : Byte :=
  BitVec.ofNat 8 (rows.getD (x.toNat / 16) 0 >>> (8 * (15 - x.toNat % 16)))

/-- `Sbox[x]`, 41_rom_tables.md R141. -/
def sbox (x : Byte) : Byte := rowsByte sboxRows x

/-- `InvSbox[y]`, 41_rom_tables.md R143. -/
def invSbox (y : Byte) : Byte := rowsByte invSboxRows y

/-- `Rcon[j]`, 41_rom_tables.md R144; j is at most 10 wherever key expansion reads it. -/
def rcon (j : Nat) : Byte := BitVec.ofNat 8 (aesRcon.getD j 0)

/-- `S_BOXES[i][row][column]` in the eight tables, 41_rom_tables.md R152. -/
def desSbox (i row col : Nat) : BitVec 4 :=
  BitVec.ofNat 4 (([desS1, desS2, desS3, desS4, desS5, desS6, desS7, desS8].getD i []).getD (16 * row + col) 0)

/-- The entry count of ROM `tbl`, 41_rom_tables.md R140; none for TBL 11..15, which name no ROM. -/
def romSize (tbl : BitVec 4) : Option Nat :=
  match tbl.toNat with
  | 0 => some 256
  | 1 => some 256
  | 2 => some 11
  | 3 => some 64
  | 4 => some 64
  | 5 => some 56
  | 6 => some 48
  | 7 => some 48
  | 8 => some 32
  | 9 => some 16
  | 10 => some 512
  | _ => none

/-- Entry `i` of ROM `tbl`, for `i` below its size (41_rom_tables.md R140): "ROM entry `i` of a permutation table is the
1-indexed table entry `T[i+1]`". -/
def romEntry (tbl : BitVec 4) (i : Nat) : Nat :=
  match tbl.toNat with
  | 0 => (sbox (BitVec.ofNat 8 i)).toNat
  | 1 => (invSbox (BitVec.ofNat 8 i)).toNat
  | 2 => aesRcon.getD i 0
  | 3 => desIpTable.getD i 0
  | 4 => desFpTable.getD i 0
  | 5 => desPc1Table.getD i 0
  | 6 => desPc2Table.getD i 0
  | 7 => desETable.getD i 0
  | 8 => desPTable.getD i 0
  | 9 => desShifts.getD i 0
  | 10 => desSboxTable.getD i 0
  | _ => 0

/-! ## The command -/

/-- ROM_READ (41_rom_tables.md R153): a table that does not exist is ILLEGAL_CMD, an index at or beyond the table's length
is RANGE, and otherwise `RES <- zext_32(ROM_tbl[idx])`. -/
def execRomRead (tbl : BitVec 4) (idx : BitVec 9) (s : State) : Out State :=
  match romSize tbl with
  | none => raise .illegalCmd s
  | some n =>
    if idx.toNat ≥ n then raise .range s
    else finish { s with res := BitVec.ofNat 32 (romEntry tbl idx.toNat) }

end Sys2Proof.Machine
end

