-- ==== Sys2Proof/Machine/AesKey.lean ====
section
/-! DEFINITION. AES key expansion and its commands, spec/42_aes_key_schedule.md. -/

namespace Sys2Proof.Machine

/-- `RotWord(w) = rotl_32(w, 8)` (42_aes_key_schedule.md R170). -/
def rotWord (w : Word) : Word := w.rotateLeft 8

/-- `SubWord(a0 || a1 || a2 || a3) = Sbox[a0] || Sbox[a1] || Sbox[a2] || Sbox[a3]` (42_aes_key_schedule.md R171). -/
def subWord (w : Word) : Word := packWord fun r => sbox (byteOf w r)

/-- `RconWord(j) = Rcon[j] || 0x00 || 0x00 || 0x00` (42_aes_key_schedule.md R172). -/
def rconWord (j : Nat) : Word := rcon j ++ 0#24

/-- `(Nk, Nr)` for a key of `lk` bytes; none is a KeyLengthError (42_aes_key_schedule.md R173). -/
def aesParams (lk : Nat) : Option (Nat × Nat) :=
  match lk with
  | 16 => some (4, 10)
  | 24 => some (6, 12)
  | 32 => some (8, 14)
  | _ => none

/-- `temp` of the recurrence at index `i`, from `w[i-1]` (42_aes_key_schedule.md R174). -/
def expandTemp (nk i : Nat) (prev : Word) : Word :=
  if i % nk = 0 then subWord (rotWord prev) ^^^ rconWord (i / nk)
  else if nk > 6 ∧ i % nk = 4 then subWord prev
  else prev

/-- `n` turns of the recurrence on the words `w[0 .. i-1]`: "`w[i] <- w[i-Nk] ^ temp`" (42_aes_key_schedule.md R174). -/
def expandWords (nk : Nat) : Nat → List Word → List Word
  | 0, ws => ws
  | n + 1, ws =>
    expandWords nk n
      (ws ++ [ws.getD (ws.length - nk) 0 ^^^ expandTemp nk ws.length (ws.getD (ws.length - 1) 0)])

/-- `KeyExpansion(key)`: the words `w[0 .. 4(Nr+1)-1]` from the `nk` key words (42_aes_key_schedule.md R174). -/
def keyExpansion (nk nr : Nat) (keyWords : List Word) : List Word :=
  expandWords nk (4 * (nr + 1) - nk) keyWords

/-- AES_KEXP (42_aes_key_schedule.md R176): KEY_LENGTH unless KLEN is 16, 24 or 32; otherwise all 60 words are written, the
schedule and then zeros, with `NR <- Nr; AKV <- 1`. -/
def execAesKexp (s : State) : Out State :=
  match aesParams (klen s).toNat with
  | none => raise .keyLength s
  | some (nk, nr) =>
    finish
      { s with
        w := padTo 60 0 (keyExpansion nk nr (aesKeyWords s nk))
        nr := BitVec.ofNat 4 nr
        akv := true }

/-- AES_ROTWORD (42_aes_key_schedule.md R177): `RES <- RotWord(OPA)`. -/
def execAesRotword (s : State) : Out State := finish { s with res := rotWord s.opa }

/-- AES_SUBWORD (42_aes_key_schedule.md R178): `RES <- SubWord(OPA)`. -/
def execAesSubword (s : State) : Out State := finish { s with res := subWord s.opa }

end Sys2Proof.Machine
end

