-- ==== Sys2Proof/Machine/Gf.lean ====
section
/-! DEFINITION. The GF(2^8) multiplier and its two commands, spec/40_gf.md. -/

namespace Sys2Proof.Machine

/-- `xtime(a)`: "double, reducing by `0x1B` on overflow" (40_gf.md R121). -/
def xtime (a : Byte) : Byte := if a.getLsbD 7 then (a <<< 1) ^^^ 0x1B else a <<< 1

/-- `n` turns of the loop of 40_gf.md R122, with the product so far in `p`. -/
def mulSteps : Nat → Byte → Byte → Byte → Byte
  | 0, _, _, p => p
  | n + 1, a, b, p => mulSteps n (xtime a) (b >>> 1) (if b.getLsbD 0 then p ^^^ a else p)

/-- `mul(a, b)`: the "8-step shift-and-add-reduce" of 40_gf.md R122. -/
def mul (a b : Byte) : Byte := mulSteps 8 a b 0

/-- `mul3(a) = xtime(a) ^ a` (40_gf.md R124). -/
def mul3 (a : Byte) : Byte := xtime a ^^^ a

/-- GF_XTIME (40_gf.md R126): `RES <- zext_32(xtime(OPA[7:0]))`. -/
def execGfXtime (s : State) : Out State := finish { s with res := (xtime (opaA s)).setWidth 32 }

/-- GF_MUL (40_gf.md R127): `RES <- zext_32(mul(OPA[7:0], OPA[15:8]))`. -/
def execGfMul (s : State) : Out State := finish { s with res := (mul (opaA s) (opaB s)).setWidth 32 }

end Sys2Proof.Machine
end

