-- ==== Sys2Proof/Machine/AesRound.lean ====
section
/-! DEFINITION. The AES round transforms and their commands, spec/44_aes_round.md. Each reads the whole STATE and writes
the whole STATE (10_state.md R40). -/

namespace Sys2Proof.Machine

/-- `SubBytes(s)[r][c] = Sbox[s[r][c]]` (44_aes_round.md R210). -/
def subBytes (st : Vector Word 4) : Vector Word 4 := fromMatrix fun r c => sbox (stateByte st r c)

/-- `InvSubBytes(s)[r][c] = InvSbox[s[r][c]]` (44_aes_round.md R211). -/
def invSubBytes (st : Vector Word 4) : Vector Word 4 := fromMatrix fun r c => invSbox (stateByte st r c)

/-- `ShiftRows(s)[r][c] = s[r][(c + r) mod 4]` (44_aes_round.md R212). -/
def shiftRows (st : Vector Word 4) : Vector Word 4 := fromMatrix fun r c => stateByte st r (c + r)

/-- `InvShiftRows(s)[r][c] = s[r][(c + 4 - r) mod 4]` (44_aes_round.md R213). -/
def invShiftRows (st : Vector Word 4) : Vector Word 4 := fromMatrix fun r c => stateByte st r (c - r)

/-- MixColumns on one column, 44_aes_round.md R214. -/
def mixColumn (w : Word) : Word :=
  let s0 := byteOf w 0
  let s1 := byteOf w 1
  let s2 := byteOf w 2
  let s3 := byteOf w 3
  (xtime s0 ^^^ mul3 s1 ^^^ s2 ^^^ s3)
    ++ (s0 ^^^ xtime s1 ^^^ mul3 s2 ^^^ s3)
    ++ (s0 ^^^ s1 ^^^ xtime s2 ^^^ mul3 s3)
    ++ (mul3 s0 ^^^ s1 ^^^ s2 ^^^ xtime s3)

/-- InvMixColumns on one column, 44_aes_round.md R215. -/
def invMixColumn (w : Word) : Word :=
  let s0 := byteOf w 0
  let s1 := byteOf w 1
  let s2 := byteOf w 2
  let s3 := byteOf w 3
  (mul 0x0E s0 ^^^ mul 0x0B s1 ^^^ mul 0x0D s2 ^^^ mul 0x09 s3)
    ++ (mul 0x09 s0 ^^^ mul 0x0E s1 ^^^ mul 0x0B s2 ^^^ mul 0x0D s3)
    ++ (mul 0x0D s0 ^^^ mul 0x09 s1 ^^^ mul 0x0E s2 ^^^ mul 0x0B s3)
    ++ (mul 0x0B s0 ^^^ mul 0x0D s1 ^^^ mul 0x09 s2 ^^^ mul 0x0E s3)

/-- `MixColumns(s)`: "Every column is computed from the old column" (44_aes_round.md R214). -/
def mixColumns (st : Vector Word 4) : Vector Word 4 := columns fun c => mixColumn st[c]

/-- `InvMixColumns(s)` (44_aes_round.md R215). -/
def invMixColumns (st : Vector Word 4) : Vector Word 4 := columns fun c => invMixColumn st[c]

/-- `AddRoundKey(s, r)`: `STATE[c] <- STATE[c] ^ W[4r + c]` (44_aes_round.md R216). -/
def addRoundKey (w : Vector Word 60) (r : Nat) (st : Vector Word 4) : Vector Word 4 :=
  columns fun c => st[c] ^^^ scheduleWord w (4 * r + c.val)

/-- AES_SUBBYTES (44_aes_round.md R220). -/
def execAesSubbytes (s : State) : Out State := finish { s with state := subBytes s.state }

/-- AES_INVSUBBYTES (44_aes_round.md R221). -/
def execAesInvsubbytes (s : State) : Out State := finish { s with state := invSubBytes s.state }

/-- AES_SHIFTROWS (44_aes_round.md R222). -/
def execAesShiftrows (s : State) : Out State := finish { s with state := shiftRows s.state }

/-- AES_INVSHIFTROWS (44_aes_round.md R223). -/
def execAesInvshiftrows (s : State) : Out State := finish { s with state := invShiftRows s.state }

/-- AES_MIXCOLUMNS (44_aes_round.md R224). -/
def execAesMixcolumns (s : State) : Out State := finish { s with state := mixColumns s.state }

/-- AES_INVMIXCOLUMNS (44_aes_round.md R225). -/
def execAesInvmixcolumns (s : State) : Out State := finish { s with state := invMixColumns s.state }

/-- AES_ADDROUNDKEY (44_aes_round.md R226): NO_SCHEDULE while `AKV = 0`, then RANGE if `rnd > NR`. -/
def execAesAddroundkey (rnd : BitVec 4) (s : State) : Out State :=
  if s.akv then
    if rnd.toNat > s.nr.toNat then raise .range s
    else finish { s with state := addRoundKey s.w rnd.toNat s.state }
  else raise .noSchedule s

end Sys2Proof.Machine
end

