-- ==== Sys2Proof/Machine/DesRound.lean ====
section
/-! DEFINITION. The DES Feistel function in its three strategies, the permutations, the round and their commands,
spec/45_des_feistel.md. -/

namespace Sys2Proof.Machine

/-- `Expand(R) = Permute(R, E, 32)` (45_des_feistel.md R240). -/
def expand (r : Word) : BitVec 48 := permute 48 desETable r

/-- The output of S-box `i` on its group of x: `g <- x[47-6i : 42-6i]`, `row <- g[5] || g[0]`, `col <- g[4:1]`
(45_des_feistel.md R241). -/
def sboxOutput (x : BitVec 48) (i : Nat) : BitVec 4 :=
  let g : BitVec 6 := x.extractLsb' (42 - 6 * i) 6
  desSbox i (2 * (g.getLsbD 5).toNat + (g.getLsbD 0).toNat) (g.extractLsb' 1 4).toNat

/-- The eight outputs, that of S-box 0 leftmost: `out <- (out << 4) | S_BOXES[i][row][col]` (45_des_feistel.md R241). -/
def sboxLayer (x : BitVec 48) : Word :=
  [0, 1, 2, 3, 4, 5, 6, 7].foldl (fun out i => (out <<< 4) ||| (sboxOutput x i).setWidth 32) 0

/-- `F_standard(R, K)` (45_des_feistel.md R241). -/
def feistelStandard (r : Word) (k : Subkey) : Word := permute 32 desPTable (sboxLayer (expand r ^^^ k))

/-- `F_xor(R, K) = (Expand(R) ^ K)[47:16]` (45_des_feistel.md R242). -/
def feistelXor (r : Word) (k : Subkey) : Word := (expand r ^^^ k).extractLsb' 16 32

/-- `F_and(R, K) = (Expand(R) & K)[47:16]` (45_des_feistel.md R243). -/
def feistelAnd (r : Word) (k : Subkey) : Word := (expand r &&& k).extractLsb' 16 32

/-- `Feistel(R, K, strat)` (45_des_feistel.md R244); strategy 3 has no value in the spec and is never latched (log 6). -/
def feistel (strat : BitVec 2) (r : Word) (k : Subkey) : Word :=
  match strat.toNat with
  | 0 => feistelStandard r k
  | 1 => feistelXor r k
  | 2 => feistelAnd r k
  | _ => Config.reservedFeistel r k

/-- `IP(x) = Permute(x, IP, 64)` (45_des_feistel.md R246). -/
def initialPerm (x : Block64) : Block64 := permute 64 desIpTable x

/-- `FP(x) = Permute(x, FP, 64)` (45_des_feistel.md R246). -/
def finalPerm (x : Block64) : Block64 := permute 64 desFpTable x

/-- `Round(L, R, K, strat) = (R, L ^ Feistel(R, K, strat))` (45_des_feistel.md R247). -/
def desRound (strat : BitVec 2) (lr : Word × Word) (k : Subkey) : Word × Word :=
  (lr.2, lr.1 ^^^ feistel strat lr.2 k)

/-- DES_IP (45_des_feistel.md R250). -/
def execDesIp (s : State) : Out State := finish { s with dstate := splitData (initialPerm (desData s)) }

/-- DES_FP (45_des_feistel.md R251). -/
def execDesFp (s : State) : Out State := finish { s with dstate := splitData (finalPerm (desData s)) }

/-- DES_F (45_des_feistel.md R252): NO_SCHEDULE while `DKV = 0`; otherwise
`RES <- Feistel(DSTATE[1], DK[k], DSTRAT_L)`. -/
def execDesF (k : BitVec 4) (s : State) : Out State :=
  if s.dkv then finish { s with res := feistel s.dstratL s.dstate[1] (subkey s k) } else raise .noSchedule s

/-- DES_ROUND (45_des_feistel.md R253): NO_SCHEDULE while `DKV = 0`; otherwise
`(L', R') <- Round(DSTATE[0], DSTATE[1], DK[k], DSTRAT_L)`. -/
def execDesRound (k : BitVec 4) (s : State) : Out State :=
  if s.dkv then
    let lr := desRound s.dstratL (s.dstate[0], s.dstate[1]) (subkey s k)
    finish { s with dstate := halves lr.1 lr.2 }
  else raise .noSchedule s

/-- DES_SWAP (45_des_feistel.md R254): exchange the halves of DSTATE. -/
def execDesSwap (s : State) : Out State := finish { s with dstate := halves s.dstate[1] s.dstate[0] }

end Sys2Proof.Machine
end

