-- ==== Sys2Proof/Machine/Block.lean ====
section
/-! DEFINITION. The single-block drivers, spec/46_block_drivers.md. -/

namespace Sys2Proof.Machine

/-- One interior round of AesCipher: "SubBytes, ShiftRows, MixColumns, AddRoundKey(round)" (46_block_drivers.md R270). -/
def aesRound (w : Vector Word 60) (st : Vector Word 4) (r : Nat) : Vector Word 4 :=
  addRoundKey w r (mixColumns (shiftRows (subBytes st)))

/-- One interior round of AesInvCipher: InvShiftRows, InvSubBytes, AddRoundKey(r), InvMixColumns
(46_block_drivers.md R271, 90_conflicts.md C5). -/
def aesInvRound (w : Vector Word 60) (st : Vector Word 4) (r : Nat) : Vector Word 4 :=
  invMixColumns (addRoundKey w r (invSubBytes (invShiftRows st)))

/-- The interior rounds `1 .. Nr-1`. -/
def interiorRounds (nr : Nat) : List Nat := List.range' 1 (nr - 1)

/-- `AesCipher(s, W, Nr)` (46_block_drivers.md R270). -/
def aesCipher (w : Vector Word 60) (nr : Nat) (st : Vector Word 4) : Vector Word 4 :=
  addRoundKey w nr (shiftRows (subBytes ((interiorRounds nr).foldl (aesRound w) (addRoundKey w 0 st))))

/-- `AesInvCipher(s, W, Nr)` (46_block_drivers.md R271). -/
def aesInvCipher (w : Vector Word 60) (nr : Nat) (st : Vector Word 4) : Vector Word 4 :=
  addRoundKey w 0
    (invSubBytes (invShiftRows ((interiorRounds nr).reverse.foldl (aesInvRound w) (addRoundKey w nr st))))

/-- The rounds of DesCipher over the subkeys in the order given, then "`FP(R || L)`" (46_block_drivers.md R274). -/
def desCipherWith (strat : BitVec 2) (keys : List Subkey) (x : Block64) : Block64 :=
  let v := initialPerm x
  let lr := keys.foldl (desRound strat) (v.extractLsb' 32 32, v.extractLsb' 0 32)
  finalPerm (lr.2 ++ lr.1)

/-- `DesCipher(x, DK, strat)`: subkeys in round order (46_block_drivers.md R274). -/
def desCipher (strat : BitVec 2) (dk : Vector Subkey 16) (x : Block64) : Block64 := desCipherWith strat dk.toList x

/-- `DesInvCipher(x, DK, strat)`: "`DK[15 - k]` in round k" (46_block_drivers.md R275). -/
def desInvCipher (strat : BitVec 2) (dk : Vector Subkey 16) (x : Block64) : Block64 :=
  desCipherWith strat dk.toList.reverse x

/-- AES_ENC (46_block_drivers.md R272): NO_SCHEDULE while `AKV = 0`. -/
def execAesEnc (s : State) : Out State :=
  if s.akv then finish { s with state := aesCipher s.w s.nr.toNat s.state } else raise .noSchedule s

/-- AES_DEC (46_block_drivers.md R273): NO_SCHEDULE while `AKV = 0`. -/
def execAesDec (s : State) : Out State :=
  if s.akv then finish { s with state := aesInvCipher s.w s.nr.toNat s.state } else raise .noSchedule s

/-- DES_ENC (46_block_drivers.md R276): NO_SCHEDULE while `DKV = 0`. -/
def execDesEnc (s : State) : Out State :=
  if s.dkv then finish { s with dstate := splitData (desCipher s.dstratL s.dk (desData s)) } else raise .noSchedule s

/-- DES_DEC (46_block_drivers.md R277): NO_SCHEDULE while `DKV = 0`. -/
def execDesDec (s : State) : Out State :=
  if s.dkv then finish { s with dstate := splitData (desInvCipher s.dstratL s.dk (desData s)) } else raise .noSchedule s

end Sys2Proof.Machine
end

