-- ==== Sys2Proof/Machine/Control.lean ====
section
/-! DEFINITION. The control commands, spec/47_control.md. -/

namespace Sys2Proof.Machine

/-- NOP (47_control.md R290): completes without effect. -/
def execNop (s : State) : Out State := finish s

/-- SRST (47_control.md R292): every piece of state takes its reset value, "then complete with ERR = 0". -/
def execSrst (s : State) : Out State := finish (hardReset s)

end Sys2Proof.Machine
end

