-- ==== Sys2Proof/Machine/DesKey.lean ====
section
/-! DEFINITION. The DES key schedule and DES_KEXP, spec/43_des_key_schedule.md. -/

namespace Sys2Proof.Machine

/-- `CD0 = Permute(K, PC1, 64)` (43_des_key_schedule.md R191). -/
def pc1 (k : Block64) : BitVec 56 := permute 56 desPc1Table k

/-- `Permute(C || D, PC2, 56)` (43_des_key_schedule.md R192). -/
def pc2 (c d : Half28) : Subkey := permute 48 desPc2Table (c ++ d)

/-- The rounds of the schedule: C and D are rotated from round to round and each round emits its subkey
(43_des_key_schedule.md R192). -/
def subkeysFrom : List Nat → Half28 → Half28 → List Subkey
  | [], _, _ => []
  | n :: rest, c, d =>
    pc2 (c.rotateLeft n) (d.rotateLeft n) :: subkeysFrom rest (c.rotateLeft n) (d.rotateLeft n)

/-- `DesKeySchedule(K)` with `C0 = CD0[55:28]` and `D0 = CD0[27:0]` (43_des_key_schedule.md R191, R192). -/
def desKeySchedule (k : Block64) : List Subkey :=
  subkeysFrom desShifts ((pc1 k).extractLsb' 28 28) ((pc1 k).extractLsb' 0 28)

/-- DES_KEXP (43_des_key_schedule.md R194): KEY_LENGTH unless `KLEN = 8`, then UNSUPPORTED_MODE if `DSTRAT = 3`; otherwise
the 16 subkeys are written, `DSTRAT_L <- CTRL.DSTRAT` and `DKV <- 1`. -/
def execDesKexp (s : State) : Out State :=
  if klen s ≠ 8 then raise .keyLength s
  else if dstrat s = 3 then raise .unsupportedMode s
  else
    finish
      { s with
        dk := padTo 16 0 (desKeySchedule (desKey s))
        dstratL := dstrat s
        dkv := true }

end Sys2Proof.Machine
end

