-- ==== Sys2Proof/Machine/Dispatch.lean ====
section
/-! DEFINITION. The meaning of each command: one arm per constructor of Instr (spec/30_encoding.md R93). -/

namespace Sys2Proof.Machine

/-- The engine's performance of a decoded command, writes and completion together (70_reset_and_hazards.md R371). -/
def exec (i : Instr) (s : State) : Host.Outcome State Fault Refusal :=
  match i with
  | .nop => Sys2Proof.Machine.execNop s
  | .srst => Sys2Proof.Machine.execSrst s
  | .aesKexp => Sys2Proof.Machine.execAesKexp s
  | .aesSubbytes => Sys2Proof.Machine.execAesSubbytes s
  | .aesInvsubbytes => Sys2Proof.Machine.execAesInvsubbytes s
  | .aesShiftrows => Sys2Proof.Machine.execAesShiftrows s
  | .aesInvshiftrows => Sys2Proof.Machine.execAesInvshiftrows s
  | .aesMixcolumns => Sys2Proof.Machine.execAesMixcolumns s
  | .aesInvmixcolumns => Sys2Proof.Machine.execAesInvmixcolumns s
  | .aesAddroundkey rnd => Sys2Proof.Machine.execAesAddroundkey rnd s
  | .aesEnc => Sys2Proof.Machine.execAesEnc s
  | .aesDec => Sys2Proof.Machine.execAesDec s
  | .aesRotword => Sys2Proof.Machine.execAesRotword s
  | .aesSubword => Sys2Proof.Machine.execAesSubword s
  | .gfXtime => Sys2Proof.Machine.execGfXtime s
  | .gfMul => Sys2Proof.Machine.execGfMul s
  | .romRead tbl idx => Sys2Proof.Machine.execRomRead tbl idx s
  | .desKexp => Sys2Proof.Machine.execDesKexp s
  | .desIp => Sys2Proof.Machine.execDesIp s
  | .desFp => Sys2Proof.Machine.execDesFp s
  | .desF rnd => Sys2Proof.Machine.execDesF rnd s
  | .desRound rnd => Sys2Proof.Machine.execDesRound rnd s
  | .desSwap => Sys2Proof.Machine.execDesSwap s
  | .desEnc => Sys2Proof.Machine.execDesEnc s
  | .desDec => Sys2Proof.Machine.execDesDec s

end Sys2Proof.Machine
end

