-- ==== Sys2Proof/Machine/Engine.lean ====
section
/-! DEFINITION. The engine's one step for a pending command, and the outside world's one step (spec/70_reset_and_hazards.md
R371, spec/20_memory.md R66, R71). -/

namespace Sys2Proof.Machine

/-- The engine step of command word `c`: it decodes `c` and performs the command, or, for a word that is no legal command,
completes with ILLEGAL_CMD (70_reset_and_hazards.md R371, 30_encoding.md R94). -/
def engineStep (c : Word) (s : State) : Host.Outcome State Fault Refusal :=
  match decode c with
  | .ok i => exec i s
  | .error _ => raise .illegalCmd s

/-- The next outside event, if there is one; without one the block waits and loses no state (70_reset_and_hazards.md R360,
60_exceptions.md R347). -/
def outsideStep (s : State) : State :=
  match s.events with
  | [] => s
  | e :: rest => perform e { s with events := rest }

/-- Whether the pending command's engine step comes now: its latency has passed, or nothing else is to come, since the
engine step is weakly fair (70_reset_and_hazards.md R372, log 3). -/
def engineTurn (s : State) : Bool := s.wait == 0 || s.events.isEmpty

/-- The command word `w`, accepted and at the engine's turn. The bits of `w` above `nbits` are 0. -/
def withCommand (s : State) (nbits w : Nat) : State :=
  let c : Word := BitVec.ofNat 32 (w % 2 ^ nbits)
  { s with cmd := c, pending := some c, busy := true, wait := 0 }

end Sys2Proof.Machine
end

