-- ==== Sys2Proof/Machine/Step.lean ====
section
/-! DEFINITION. One step of the machine: the engine's step for the pending command when it is its turn, else the next
outside event (spec/70_reset_and_hazards.md R371, R372; spec/20_memory.md R66, R71). -/

namespace Sys2Proof.Machine

/-- One step. While a command is pending, `wait` outside events come first (70_reset_and_hazards.md R372, log 3). -/
def step (s : State) : Host.Outcome State Fault Refusal :=
  match s.pending with
  | some c => if engineTurn s then engineStep c s else .next (outsideStep { s with wait := s.wait - 1 })
  | none => .next (outsideStep s)

/-- The state whose next step performs the command word `w`: as if the host had just written it to CMD and no outside event
came before the engine's step (log 1). -/
def State.withFetchWord (s : State) (nbits w : Nat) : State := withCommand s nbits w

end Sys2Proof.Machine
end

