-- ==== Sys2Proof/Machine/HostSide.lean ====
section
/-! DEFINITION. The host's side, outside the block: the pseudo-instructions of spec/30_encoding.md R99 and R100 as lists of
outside events, and the padding and ECB contract of spec/48_host_padding_ecb.md as functions over the same bus operations.
Nothing here is performed by the block (00_scope.md R5, log 16), and no step of the machine calls it. -/

namespace Sys2Proof.Machine

/-! ## Host programs (30_encoding.md R99, R100) -/

/-- `WR <reg>, <value>` is `HostWrite(offset(reg), value)`. -/
def wr (r : Reg) (v : Word) : Event := .write r.offset 32 v

/-- `RD <reg>` is `HostRead(offset(reg))`. -/
def rd (r : Reg) : Event := .read r.offset 32

/-- A command line "expands to `WR CMD, enc(…)` followed by `POLL`". -/
def commandLine (i : Instr) : List Event := [wr .cmd (encode i), .poll]

/-- `BE` of each group of four bytes (00_scope.md R12); a rest shorter than four bytes is dropped. -/
def bytesToWords : List Byte → List Word
  | a :: b :: c :: d :: rest => (a ++ b ++ c ++ d) :: bytesToWords rest
  | _ => []

/-- The four bytes of a word, first byte first. -/
def wordBytes (w : Word) : List Byte := [byteOf w 0, byteOf w 1, byteOf w 2, byteOf w 3]

/-- The KEY registers that hold a key's bytes, with their words: "Key byte `j` (0 ≤ j ≤ 31) is
`KEY[j div 4][31 - 8(j mod 4) : 24 - 8(j mod 4)]`" (10_state.md R26). DESIGN CHOICE (log 20): a byte past byte 31 has no
register and is written nowhere, and the bytes of the last word that the key does not fill are written as 0. -/
def keyWords (key : List Byte) : List (Reg × Word) :=
  (([0, 1, 2, 3, 4, 5, 6, 7] : List (Fin 8)).filter fun i => 4 * i.val < key.length).map fun i =>
    (.key i, packWord fun r => key.getD (4 * i.val + r.val) 0)

/-- The register writes of `AES_SETKEY key`: "the key bytes into KEY[0..]" and "`CTRL <- len(key)`". CTRL stores the
length's bits as any value's (10_state.md R23), so a length of 64 or more shows other KLEN and DSTRAT fields (log 20). -/
def aesSetkeyWords (key : List Byte) : List (Reg × Word) := keyWords key ++ [(.ctrl, BitVec.ofNat 32 key.length)]

/-- The register writes of `DES_SETKEY key, method`: KEY[0], KEY[1] and "`CTRL <- 8 | method << 8`". The key has the
8 bytes of 00_scope.md R7. The rule names methods 0, 1 and 2; 3 is written the same way (DESIGN CHOICE, log 20). -/
def desSetkeyWords (key : Vector Byte 8) (method : BitVec 2) : List (Reg × Word) :=
  keyWords key.toList ++ [(.ctrl, 8 ||| (method.setWidth 32 <<< 8))]

/-- Register writes followed by a command line. -/
def setkeyProgram (ws : List (Reg × Word)) (i : Instr) : List Event := ws.map (fun p => wr p.1 p.2) ++ commandLine i

/-- The bus operations of `AES_SETKEY key` and `DES_SETKEY key, method`. The check of `STATUS.ERR` that ends them is
`statusErrShown`; `hostAesSetkey` and `hostDesSetkey` are the calls with their check. -/
def aesSetkey (key : List Byte) : List Event := setkeyProgram (aesSetkeyWords key) .aesKexp
def desSetkey (key : Vector Byte 8) (method : BitVec 2) : List Event :=
  setkeyProgram (desSetkeyWords key method) .desKexp

/-- The ERR field of the STATUS word that the last POLL of a program returned: the program's check succeeds when it is 0
("checking `STATUS.ERR = 0`"). None while nothing has been read. -/
def statusErrShown (s : State) : Option (BitVec 4) := s.returned.head?.map fun w => w.extractLsb' 8 4

/-- The data registers of an AES block and of a DES block, in block order (10_state.md R27, R28). -/
def aesDataRegs : List Reg := [.state 0, .state 1, .state 2, .state 3]
def desDataRegs : List Reg := [.dstate 0, .dstate 1]

/-- Write a block's words to the data registers, run one command, read the registers back. -/
def blockProgram (regs : List Reg) (i : Instr) (b : List Byte) : List Event :=
  (regs.zip (bytesToWords b)).map (fun p => wr p.1 p.2) ++ commandLine i ++ regs.map rd

/-- `AES_BLOCK_ENC b` and its three fellows. -/
def aesBlockEnc (b : List Byte) : List Event := blockProgram aesDataRegs .aesEnc b
def aesBlockDec (b : List Byte) : List Event := blockProgram aesDataRegs .aesDec b
def desBlockEnc (b : List Byte) : List Event := blockProgram desDataRegs .desEnc b
def desBlockDec (b : List Byte) : List Event := blockProgram desDataRegs .desDec b

/-! ## Calls that check for an error (30_encoding.md R100) -/

/-- Why a host call fails: 48_host_padding_ecb.md R308, or a command's error code (R306, 30_encoding.md R100). -/
inductive DriverError where
  | blockAlignment
  | command (code : BitVec 4)
  | stopped
deriving DecidableEq, Repr

/-- Write words to registers over the bus, in order. -/
def storeWords (ws : List (Reg × Word)) (s : State) : State :=
  ws.foldl (fun t p => hostWrite p.1.offset 32 p.2 t) s

/-- Write a command to CMD and poll until it has completed: the engine's step on the accepted word (R306; 30_encoding.md
R99). DESIGN CHOICE (log 21): called while `BUSY = 1`, the call's writes all come before the engine's step on the older
command and are dropped, and the polls then end with that command's completion. -/
def runCommand (i : Instr) (s : State) : Out State :=
  let t := hostWrite (Reg.offset .cmd) 32 (encode i) s
  match t.pending with
  | some c => engineStep c t
  | none => .next t

/-- Run a command and check `STATUS.ERR = 0`. -/
def runChecked (i : Instr) (s : State) : Except DriverError State :=
  match runCommand i s with
  | .next t => if t.err = 0 then .ok t else .error (.command t.err)
  | .fault _ => .error .stopped
  | .refused _ => .error .stopped

/-- `AES_SETKEY key`, "this is `Cipher(key)`": writes, AES_KEXP and the check. -/
def hostAesSetkey (key : List Byte) (s : State) : Except DriverError State :=
  runChecked .aesKexp (storeWords (aesSetkeyWords key) s)

/-- `DES_SETKEY key, method`, "this is `Cipher(key, method)`": writes, DES_KEXP and the check. -/
def hostDesSetkey (key : Vector Byte 8) (method : BitVec 2) (s : State) : Except DriverError State :=
  runChecked .desKexp (storeWords (desSetkeyWords key method) s)

/-! ## Padding (48_host_padding_ecb.md R301, R302) -/

/-- `pad(m)`: `n <- B - (len(m) mod B)`, then `n` bytes of value `n` (R301). -/
def pad (blockSize : Nat) (m : List Byte) : List Byte :=
  let n := blockSize - m.length % blockSize
  m ++ List.replicate n (BitVec.ofNat 8 n)

/-- `unpad(d)`: "drop `min(n, len(d))` trailing bytes", with n the last byte; empty gives empty (R302, log 16). -/
def unpad (d : List Byte) : List Byte :=
  match d.getLast? with
  | none => []
  | some n => d.take (d.length - min n.toNat d.length)

/-! ## The multi-block driver (48_host_padding_ecb.md R300, R305 to R308) -/

/-- The cipher family the driver is parameterised by (R300). -/
inductive Family where
  | aes
  | des
deriving DecidableEq, Repr

/-- "block size `B = 16`" or "`B = 8`" (R300). -/
def Family.blockSize : Family → Nat
  | .aes => 16
  | .des => 8

/-- The registers a block is loaded into and read back from (R305). -/
def Family.regs : Family → List Reg
  | .aes => aesDataRegs
  | .des => desDataRegs

def Family.encCommand : Family → Instr
  | .aes => .aesEnc
  | .des => .desEnc

def Family.decCommand : Family → Instr
  | .aes => .aesDec
  | .des => .desDec

/-- `blk[j] = d[jB .. jB + B - 1]`, in order (R305). -/
def splitBlocks (blockSize : Nat) (d : List Byte) : List (List Byte) :=
  (List.range (d.length / blockSize)).map fun j => (d.drop (j * blockSize)).take blockSize

/-- Write a block to its registers over the bus. -/
def loadBlock (regs : List Reg) (b : List Byte) (s : State) : State := storeWords (regs.zip (bytesToWords b)) s

/-- Read a block back from its registers over the bus. -/
def readBlock (regs : List Reg) (s : State) : List Byte :=
  regs.flatMap fun r => wordBytes (hostRead r.offset 32 s).1

/-- One block: write, run, "check `STATUS.ERR = 0`", read back (R306). -/
def driveBlock (f : Family) (i : Instr) (b : List Byte) (s : State) : Except DriverError (List Byte × State) :=
  match runChecked i (loadBlock f.regs b s) with
  | .ok t => .ok (readBlock f.regs t, t)
  | .error e => .error e

/-- The blocks one after another, outputs concatenated; an error "aborts the call with no output" (R306). -/
def driveBlocks (f : Family) (i : Instr) : List (List Byte) → State → Except DriverError (List Byte × State)
  | [], s => .ok ([], s)
  | b :: rest, s =>
    match driveBlock f i b s with
    | .error e => .error e
    | .ok (out, t) =>
      match driveBlocks f i rest t with
      | .error e => .error e
      | .ok (outs, u) => .ok (out ++ outs, u)

/-- `encrypt(message)` (R306). -/
def hostEncrypt (f : Family) (m : List Byte) (s : State) : Except DriverError (List Byte × State) :=
  driveBlocks f f.encCommand (splitBlocks f.blockSize (pad f.blockSize m)) s

/-- `decrypt(ciphertext)` (R307): a length that is no multiple of B is a BlockAlignmentError "before any block command is
issued" (R308). -/
def hostDecrypt (f : Family) (c : List Byte) (s : State) : Except DriverError (List Byte × State) :=
  if c.length % f.blockSize ≠ 0 then .error .blockAlignment
  else
    match driveBlocks f f.decCommand (splitBlocks f.blockSize c) s with
    | .error e => .error e
    | .ok (out, t) => .ok (unpad out, t)

end Sys2Proof.Machine
end

