-- ==== Sys2Proof/Safety.lean ====
section
/-! DEFINITION. What the statements speak of: the two ends of a command, the block's own part of a state, the invariants,
command sequences, and the spec's own lists of offsets. -/

namespace Sys2Proof.Machine

/-! ## The two ends of a command (spec/60_exceptions.md R330, R331) -/

/-- A command's writes are in `s` and it has completed without error: `ERR = 0`, nothing pending, not busy. -/
def finished (s : State) : State := { s with err := 0, pending := none, busy := false }

/-- A command has failed with code `e` in state `s`: only ERR, BUSY and PENDING change (R331), and the model records a fault
(93_implementation_defined.md U1, U2; log 8). -/
def failed (e : BitVec 4) (s : State) : State :=
  { s with err := e, pending := none, busy := false, ghostFault := true }

/-! ## The block's own state -/

/-- `s` with the model's own fields at their reset values: two states with the same `blockOf` agree on everything
spec/10_state.md R20 names. -/
def blockOf (s : State) : State :=
  { s with
    ghostFault := false
    events := []
    returned := []
    wait := 0
    latencyPlan := []
    accepted := 0
    draws := 0 }

/-! ## Invariants -/

/-- What holds of every state the block reaches. -/
structure BlockInv (s : State) : Prop where
  /-- "`BUSY = 1` if and only if `PENDING` holds a command" (10_state.md R36). -/
  busy_pending : s.busy = s.pending.isSome
  /-- CMD is the last accepted word (10_state.md R24). -/
  pending_cmd : ∀ c, s.pending = some c → s.cmd = c
  /-- The reserved bits of CTRL read 0 (10_state.md R23). -/
  ctrl_reserved : s.ctrl &&& 0xFFFFFCC0 = 0
  /-- Without an AES schedule NR is 0 (10_state.md R25) and W still holds its reset value (R31, R38). -/
  aes_invalid : s.akv = false → s.nr = 0 ∧ ∀ i : Fin 60, s.w[i] = 0
  /-- With one, NR is "10, 12 or 14" (10_state.md R25) and "every higher entry" of W is 0 (R31). -/
  aes_valid : s.akv = true →
    (s.nr = 10 ∨ s.nr = 12 ∨ s.nr = 14) ∧ ∀ i : Fin 60, 4 * (s.nr.toNat + 1) ≤ i.val → s.w[i] = 0
  /-- Without a DES schedule DSTRAT_L and DK still hold their reset values (10_state.md R32, R34, R38). -/
  des_invalid : s.dkv = false → s.dstratL = 0 ∧ ∀ k : Fin 16, s.dk[k] = 0
  /-- "`DSTRAT_L` is always 0, 1 or 2" (45_des_feistel.md R244). -/
  des_valid : s.dkv = true → s.dstratL ≠ 3
  /-- ERR is never 3 or 7..15 (60_exceptions.md R320, R324). -/
  err_code : s.err = 0 ∨ s.err = 1 ∨ s.err = 2 ∨ s.err = 4 ∨ s.err = 5 ∨ s.err = 6
  /-- While no fault is recorded, no error shows (93_implementation_defined.md U1 to U4, log 8). -/
  fault_recorded : s.ghostFault = false → s.err = 0 ∧ s.berr = false ∧ s.ovr = false

/-- A valid schedule is the schedule of some key: W of a key of 16, 24 or 32 bytes with its own round count, DK of a DES key
(10_state.md R31 to R34, 42_aes_key_schedule.md R175). -/
structure SchedulesAreExpansions (s : State) : Prop where
  aes : s.akv = true → ∃ (key : Vector Word 8) (lk nk nr : Nat),
    aesParams lk = some (nk, nr) ∧ s.nr = BitVec.ofNat 4 nr
      ∧ s.w = padTo 60 0 (keyExpansion nk nr (key.toList.take nk))
  des : s.dkv = true → ∃ k : Block64, s.dk = padTo 16 0 (desKeySchedule k)

/-! ## What the next step does (spec/70_reset_and_hazards.md R371, R372) -/

/-- The command word whose engine step the next step is: the pending one, when nothing more goes before it (log 3). -/
def engineCommand (s : State) : Option Word := if s.wait = 0 ∨ s.events = [] then s.pending else none

/-- The outside event the next step performs: the first to come, when the step is not the engine's. -/
def performedEvent (s : State) : Option Event :=
  match engineCommand s with
  | some _ => none
  | none => s.events.head?

/-- The next step gives the block its reset state: the engine step of SRST (47_control.md R292), or a reset event
(70_reset_and_hazards.md R361). -/
def resetsNext (s : State) : Prop :=
  (∃ c, engineCommand s = some c ∧ decode c = .ok .srst) ∨ performedEvent s = some .reset

/-! ## Command sequences -/

/-- Perform commands one after another. -/
def execSeq : List Instr → State → Out State
  | [], s => .next s
  | i :: rest, s =>
    match exec i s with
    | .next t => execSeq rest t
    | .fault r => .fault r
    | .refused r => .refused r

/-- One forward interior round `r` (44_aes_round.md R227). -/
def aesRoundCommands (r : Nat) : List Instr :=
  [.aesSubbytes, .aesShiftrows, .aesMixcolumns, .aesAddroundkey (BitVec.ofNat 4 r)]

/-- The primitive commands that make AES_ENC with `nr` rounds (44_aes_round.md R227). -/
def aesEncCommands (nr : Nat) : List Instr :=
  [.aesAddroundkey 0] ++ (List.range' 1 (nr - 1)).flatMap aesRoundCommands
    ++ [.aesSubbytes, .aesShiftrows, .aesAddroundkey (BitVec.ofNat 4 nr)]

/-- One inverse interior round `r` (46_block_drivers.md R271). -/
def aesInvRoundCommands (r : Nat) : List Instr :=
  [.aesInvshiftrows, .aesInvsubbytes, .aesAddroundkey (BitVec.ofNat 4 r), .aesInvmixcolumns]

/-- The primitive commands that make AES_DEC with `nr` rounds (46_block_drivers.md R271). -/
def aesDecCommands (nr : Nat) : List Instr :=
  [.aesAddroundkey (BitVec.ofNat 4 nr)] ++ (List.range' 1 (nr - 1)).reverse.flatMap aesInvRoundCommands
    ++ [.aesInvshiftrows, .aesInvsubbytes, .aesAddroundkey 0]

/-- "DES_IP, DES_ROUND 0 … DES_ROUND 15, DES_SWAP, DES_FP" (46_block_drivers.md R276). -/
def desEncCommands : List Instr :=
  [.desIp] ++ (List.range 16).map (fun k => .desRound (BitVec.ofNat 4 k)) ++ [.desSwap, .desFp]

/-- "DES_IP, DES_ROUND 15 … DES_ROUND 0, DES_SWAP, DES_FP" (46_block_drivers.md R277). -/
def desDecCommands : List Instr :=
  [.desIp] ++ (List.range 16).reverse.map (fun k => .desRound (BitVec.ofNat 4 k)) ++ [.desSwap, .desFp]

/-- The commands that read a key schedule, 60_exceptions.md R325. -/
def aesScheduleCommand : Instr → Bool
  | .aesAddroundkey _ | .aesEnc | .aesDec => true
  | _ => false

def desScheduleCommand : Instr → Bool
  | .desF _ | .desRound _ | .desEnc | .desDec => true
  | _ => false

/-! ## Independent readings of the rules, for the statements -/

/-- Row r of the product of a column with the circulant matrix whose first row is `base` and "whose row r is … rotated right
by r" (44_aes_round.md R214, R215). -/
def circulantProduct (base : Vector Byte 4) (column : Fin 4 → Byte) (r : Fin 4) : Byte :=
  mul base[0 - r] (column 0) ^^^ mul base[1 - r] (column 1) ^^^ mul base[2 - r] (column 2) ^^^ mul base[3 - r] (column 3)

/-- The product of two polynomials over GF(2) modulo 0x11B, term by term: the sum of `a·x^i` over the bits i of b
(40_gf.md R120). -/
def fieldProduct (a b : Byte) : Byte :=
  (List.range 8).foldl (fun p i => if b.getLsbD i then p ^^^ xtime^[i] a else p) 0

/-- Word i of an AES schedule, `W[i]`. -/
def wordOf (w : Vector Word 60) (i : Nat) : Word := w.toList.getD i 0

/-- The row that DES S-box i reads for the 48-bit x: bits 0 and 5 of group i, counted from the most significant
(45_des_feistel.md R241). -/
def groupRow (x : BitVec 48) (i : Nat) : Nat := 2 * (x.getMsbD (6 * i)).toNat + (x.getMsbD (6 * i + 5)).toNat

/-- The column: bits 1 to 4 of group i. -/
def groupColumn (x : BitVec 48) (i : Nat) : Nat :=
  8 * (x.getMsbD (6 * i + 1)).toNat + 4 * (x.getMsbD (6 * i + 2)).toNat + 2 * (x.getMsbD (6 * i + 3)).toNat
    + (x.getMsbD (6 * i + 4)).toNat

/-- TBL and entry count of the eleven ROMs, the table of 41_rom_tables.md R140. -/
def romCounts : List (Nat × Nat) :=
  [(0, 256), (1, 256), (2, 11), (3, 64), (4, 64), (5, 56), (6, 48), (7, 48), (8, 32), (9, 16), (10, 512)]

/-! ## Offsets, as spec/20_memory.md lists them -/

/-- "Unmapped: 0x050..0x0FC, 0x1F0..0x1FC, 0x280..0xFFF" (R62), taken with every byte offset in between. -/
def unmappedOffset (off : Nat) : Prop :=
  (0x050 ≤ off ∧ off < 0x100) ∨ (0x1F0 ≤ off ∧ off < 0x200) ∨ 0x280 ≤ off

/-- "An access of any other width … or at an offset with `off mod 4 ≠ 0`" (R65), or at an unmapped offset (R67). -/
def badAccess (off width : Nat) : Prop := width ≠ 32 ∨ off % 4 ≠ 0 ∨ unmappedOffset off

/-- The offsets of the read-only registers "ID, RES, W[i], DKH[k], DKL[k]" (R67, R62). -/
def readOnlyOffset (off : Nat) : Prop :=
  off = 0x000 ∨ off = 0x04C ∨ (0x100 ≤ off ∧ off < 0x1F0) ∨ (0x200 ≤ off ∧ off < 0x280)

/-- The codes each command can report besides 0, 60_exceptions.md R327. -/
def errorCodes : Instr → List (BitVec 4)
  | .aesKexp => [4, 1]
  | .desKexp => [4, 1, 2]
  | .aesAddroundkey _ => [4, 5, 6]
  | .aesEnc | .aesDec | .desF _ | .desRound _ | .desEnc | .desDec => [4, 5]
  | .romRead _ _ => [4, 6]
  | .nop | .srst | .aesSubbytes | .aesInvsubbytes | .aesShiftrows | .aesInvshiftrows | .aesMixcolumns
  | .aesInvmixcolumns | .aesRotword | .aesSubword | .gfXtime | .gfMul | .desIp | .desFp | .desSwap => [4]

end Sys2Proof.Machine
end

