-- ==== Sys2Proof/Certificates/Slice0/Obligations.lean ====
section
/-! DEFINITION. The statements for the provers, from the numbered rules of spec/. A next state is written as the old state
with the changed fields, so each equation is also the command's frame. -/

open Sys2Proof Sys2Proof.Machine

/-! ## Reset and invariants -/

/-- 10_state.md R38: every row of the table but the ROMs, which are no state. The model's own fields hold the values of
log 3, 4, 8, 9 and 11 (the model's choice). -/
def Obligations.ResetHoldsTheSpecValues : Prop :=
  let s := State.reset
  readReg .id s = 0x434F5245 ∧ s.ctrl = 0 ∧ s.cmd = 0 ∧ statusWord s = 0 ∧ s.pending = none
    ∧ (∀ i : Fin 8, s.key[i] = 0) ∧ (∀ c : Fin 4, s.state[c] = 0) ∧ (∀ h : Fin 2, s.dstate[h] = 0)
    ∧ s.opa = 0 ∧ s.res = 0 ∧ (∀ i : Fin 60, s.w[i] = 0) ∧ (∀ k : Fin 16, s.dk[k] = 0)
    ∧ s.busy = false ∧ s.akv = false ∧ s.dkv = false ∧ s.berr = false ∧ s.ovr = false
    ∧ s.err = 0 ∧ s.nr = 0 ∧ s.dstratL = 0

def Obligations.ResetMeetsTheInvariants : Prop := BlockInv State.reset ∧ SchedulesAreExpansions State.reset

/-- BUSY and PENDING agree (R36), CMD holds the pending word (R24), reserved bits of CTRL are 0 (R23), NR and the tail of W
(R25, R31), DSTRAT_L (R244), ERR (R320, R324); the fault record is the model's own (log 8). -/
def Obligations.StepKeepsTheInvariant : Prop := ∀ s t, BlockInv s → step s = .next t → BlockInv t

/-- "schedule length is a pure function of key length" (00_scope.md R19): a valid W is always one whole key's expansion. -/
def Obligations.StepKeepsSchedulesExpansions : Prop :=
  ∀ s t, SchedulesAreExpansions s → step s = .next t → SchedulesAreExpansions t

/-- 70_reset_and_hazards.md R362: the reset event gives the reset state whatever came before, and SRST after it changes
nothing of the block. -/
def Obligations.ResetEventForgetsTheBlock : Prop :=
  ∀ s, blockOf (perform .reset s) = State.reset
    ∧ ∃ t, exec .srst (perform .reset s) = .next t ∧ blockOf t = State.reset

/-- 47_control.md R292; that the model's own fields survive is the model's choice (log 17). -/
def Obligations.SrstGivesTheResetState : Prop :=
  ∀ s, exec .srst s = .next
    { State.reset with
      ghostFault := s.ghostFault
      events := s.events
      returned := s.returned
      latencyPlan := s.latencyPlan
      accepted := s.accepted
      draws := s.draws }

/-! ## Control and GF(2^8) -/

/-- 47_control.md R290. -/
def Obligations.NopChangesOnlyCompletion : Prop :=
  ∀ s, exec .nop s = .next { s with err := 0, pending := none, busy := false }

/-- 40_gf.md R121, R126: the byte is doubled as an integer and reduced by 0x11B when it overflows. -/
def Obligations.GfXtimeDoublesModulo11B : Prop :=
  ∀ s, ∃ b : Byte, exec .gfXtime s = .next (finished { s with res := b.setWidth 32 })
    ∧ b.toNat = (let a := s.opa.toNat % 256; if a < 128 then 2 * a else (2 * a) ^^^ 0x11B)

/-- 40_gf.md R120, R122, R127. -/
def Obligations.GfMulIsTheFieldProduct : Prop :=
  ∀ s, exec .gfMul s = .next (finished
    { s with res := (fieldProduct (s.opa.extractLsb' 0 8) (s.opa.extractLsb' 8 8)).setWidth 32 })

/-- 40_gf.md R123, every law of the rule. -/
def Obligations.MulObeysTheFieldLaws : Prop :=
  (∀ a b, mul a b = mul b a) ∧ (∀ a, mul a 0x00 = 0x00) ∧ (∀ a, mul a 0x01 = a) ∧ (∀ a, mul a 0x02 = xtime a)
    ∧ (∀ a b c, mul a (b ^^^ c) = mul a b ^^^ mul a c) ∧ (∀ a b c, mul (mul a b) c = mul a (mul b c))
    ∧ ∀ a : Byte, a ≠ 0 → ∃ b, mul a b = 0x01 ∧ ∀ b', mul a b' = 0x01 → b' = b

/-! ## The ROMs -/

/-- 41_rom_tables.md R140, R152, R153: each table answers exactly below its entry count, with the entries that the
transforms read; entry `i` of a permutation table is its 1-indexed entry `T[i+1]`, and DES_SBOX holds S-box i, row and
column at `64·i + 16·row + column`. -/
def Obligations.RomReadReturnsTheEntry : Prop :=
  ∀ s, let reads := fun (tbl : BitVec 4) (idx : BitVec 9) (v : Word) =>
      exec (.romRead tbl idx) s = .next (finished { s with res := v })
    (∀ x : Byte, reads 0 (x.setWidth 9) ((sbox x).setWidth 32) ∧ reads 1 (x.setWidth 9) ((invSbox x).setWidth 32))
      ∧ (∀ j : BitVec 9, j.toNat < 11 → reads 2 j ((rcon j.toNat).setWidth 32))
      ∧ (∀ p ∈ [(3, desIpTable), (4, desFpTable), (5, desPc1Table), (6, desPc2Table), (7, desETable), (8, desPTable),
          (9, desShifts)], (p.1, p.2.length) ∈ romCounts
          ∧ ∀ j : BitVec 9, j.toNat < p.2.length →
            reads (BitVec.ofNat 4 p.1) j (BitVec.ofNat 32 (p.2.getD j.toNat 0)))
      ∧ ∀ i row col, i < 8 → row < 4 → col < 16 →
          reads 10 (BitVec.ofNat 9 (64 * i + 16 * row + col)) ((desSbox i row col).setWidth 32)

/-- 41_rom_tables.md R142 to R144: each S-box entry is the affine image of the inverse in GF(2^8), the inverse S-box
inverts it, and Rcon is the powers of xtime. -/
def Obligations.AesTablesAreTheirConstructions : Prop :=
  (∀ x : Byte, ∃ b : Byte, (x = 0 → b = 0) ∧ (x ≠ 0 → mul x b = 0x01)
      ∧ sbox x = b ^^^ b.rotateLeft 1 ^^^ b.rotateLeft 2 ^^^ b.rotateLeft 3 ^^^ b.rotateLeft 4 ^^^ 0x63)
    ∧ (∀ x, invSbox (sbox x) = x) ∧ (∀ y, sbox (invSbox y) = y)
    ∧ ∀ j, 1 ≤ j → j ≤ 10 → rcon j = xtime^[j - 1] 0x01

/-- 45_des_feistel.md R246: FP and IP undo each other on every 64-bit value. -/
def Obligations.FpAndIpUndoEachOther : Prop :=
  ∀ x, finalPerm (initialPerm x) = x ∧ initialPerm (finalPerm x) = x

/-! ## AES keys -/

/-- 42_aes_key_schedule.md R174 and R173, for AES_KEXP (R176): the key words, the recurrence, and zeros above. -/
def Obligations.AesKexpFollowsTheRecurrence : Prop :=
  ∀ s nk nr, ((s.ctrl.extractLsb' 0 6).toNat, nk, nr) ∈ [(16, 4, 10), (24, 6, 12), (32, 8, 14)] →
    ∃ w : Vector Word 60, exec .aesKexp s = .next (finished { s with w := w, nr := BitVec.ofNat 4 nr, akv := true })
      ∧ (∀ i, i < nk → wordOf w i = s.key.toList.getD i 0)
      ∧ (∀ i, nk ≤ i → i < 4 * (nr + 1) → wordOf w i = wordOf w (i - nk) ^^^
          (if i % nk = 0 then subWord (rotWord (wordOf w (i - 1))) ^^^ (rcon (i / nk) ++ 0#24)
            else if nk > 6 ∧ i % nk = 4 then subWord (wordOf w (i - 1)) else wordOf w (i - 1)))
      ∧ ∀ i, 4 * (nr + 1) ≤ i → wordOf w i = 0

/-- 42_aes_key_schedule.md R170, R171, for AES_ROTWORD and AES_SUBWORD (R177, R178). -/
def Obligations.RotwordAndSubwordActOnBytes : Prop :=
  ∀ s, ∃ u v : Word,
    exec .aesRotword s = .next (finished { s with res := u })
      ∧ exec .aesSubword s = .next (finished { s with res := v })
      ∧ u = s.opa.rotateLeft 8 ∧ byteOf u 0 = byteOf s.opa 1 ∧ byteOf u 1 = byteOf s.opa 2
      ∧ byteOf u 2 = byteOf s.opa 3 ∧ byteOf u 3 = byteOf s.opa 0
      ∧ ∀ r, byteOf v r = sbox (byteOf s.opa r)

/-- 60_exceptions.md R322, R323: KEY_LENGTH and UNSUPPORTED_MODE. The fault record is the model's own (log 8). -/
def Obligations.KexpRaisesItsErrors : Prop :=
  ∀ s, (klen s ≠ 16 → klen s ≠ 24 → klen s ≠ 32 → exec .aesKexp s = .next (failed 1 s))
    ∧ (klen s ≠ 8 → exec .desKexp s = .next (failed 1 s))
    ∧ (klen s = 8 → s.ctrl.extractLsb' 8 2 = 3 → exec .desKexp s = .next (failed 2 s))

/-! ## AES rounds -/

/-- 44_aes_round.md R210, R211, for AES_SUBBYTES and AES_INVSUBBYTES (R220, R221). -/
def Obligations.AesSubbytesSubstitutesAllSixteen : Prop :=
  ∀ s, ∃ u v : Vector Word 4,
    exec .aesSubbytes s = .next (finished { s with state := u })
      ∧ exec .aesInvsubbytes s = .next (finished { s with state := v })
      ∧ ∀ r c, stateByte u r c = sbox (stateByte s.state r c) ∧ stateByte v r c = invSbox (stateByte s.state r c)

/-- 44_aes_round.md R212, R213, for AES_SHIFTROWS and AES_INVSHIFTROWS (R222, R223). -/
def Obligations.AesShiftrowsRotatesTheRows : Prop :=
  ∀ s, ∃ u v : Vector Word 4,
    exec .aesShiftrows s = .next (finished { s with state := u })
      ∧ exec .aesInvshiftrows s = .next (finished { s with state := v })
      ∧ ∀ r c : Fin 4, stateByte u r c = stateByte s.state r (Fin.ofNat 4 ((c.val + r.val) % 4))
          ∧ stateByte v r c = stateByte s.state r (Fin.ofNat 4 ((c.val + 4 - r.val) % 4))

/-- 44_aes_round.md R214, R215, for AES_MIXCOLUMNS and AES_INVMIXCOLUMNS (R224, R225): the matrix products with the
circulant matrices. -/
def Obligations.AesMixcolumnsIsTheMatrixProduct : Prop :=
  ∀ s, ∃ u v : Vector Word 4,
    exec .aesMixcolumns s = .next (finished { s with state := u })
      ∧ exec .aesInvmixcolumns s = .next (finished { s with state := v })
      ∧ ∀ r c, stateByte u r c = circulantProduct #v[0x02, 0x03, 0x01, 0x01] (fun j => stateByte s.state j c) r
          ∧ stateByte v r c = circulantProduct #v[0x0E, 0x0B, 0x0D, 0x09] (fun j => stateByte s.state j c) r

/-- 44_aes_round.md R216, R226: within the schedule the round key is added, and adding it twice restores STATE.
Words above W[59], asked for only when NR is 15, are free values (log 5). -/
def Obligations.AesAddroundkeyAddsTheRoundKey : Prop :=
  ∀ s (rnd : BitVec 4), s.akv = true → rnd.toNat ≤ s.nr.toNat →
    ∃ u : Vector Word 4, exec (.aesAddroundkey rnd) s = .next (finished { s with state := u })
      ∧ (rnd.toNat ≤ 14 → ∀ c : Fin 4, u[c] = s.state[c] ^^^ wordOf s.w (4 * rnd.toNat + c.val))
      ∧ exec (.aesAddroundkey rnd) { s with state := u } = .next (finished s)

/-- 44_aes_round.md R211, R213, R215 and the source's "`InvMixColumns(MixColumns(column)) == column`": each inverse undoes
its transform on every state. -/
def Obligations.InverseTransformsUndo : Prop :=
  ∀ st, invSubBytes (subBytes st) = st ∧ invShiftRows (shiftRows st) = st ∧ invMixColumns (mixColumns st) = st
    ∧ subBytes (invSubBytes st) = st ∧ shiftRows (invShiftRows st) = st ∧ mixColumns (invMixColumns st) = st

/-! ## DES keys -/

/-- 43_des_key_schedule.md R190 to R192, R194: subkey k comes from C0 and D0 rotated by the sum of the first k+1 amounts. -/
def Obligations.DesKexpRotatesCumulatively : Prop :=
  ∀ s, klen s = 8 → dstrat s ≠ 3 →
    ∃ dk : Vector Subkey 16,
      exec .desKexp s = .next (finished { s with dk := dk, dstratL := dstrat s, dkv := true })
        ∧ ∀ k : Fin 16,
          let cd0 := permute 56 desPc1Table (s.key[0] ++ s.key[1])
          let n := (desShifts.take (k.val + 1)).sum
          dk[k] = permute 48 desPc2Table
            ((cd0.extractLsb' 28 28).rotateLeft n ++ (cd0.extractLsb' 0 28).rotateLeft n)

/-- 43_des_key_schedule.md R193: the amounts sum to 28, the last subkey is that of C0 and D0, and keys that differ only in
parity bits have one schedule. -/
def Obligations.DesScheduleIgnoresParity : Prop :=
  desShifts.sum = 28
    ∧ (∀ k, (desKeySchedule k).getD 15 0 = pc2 ((pc1 k).extractLsb' 28 28) ((pc1 k).extractLsb' 0 28))
    ∧ ∀ k k' : Block64, (∀ p, p < 64 → p % 8 ≠ 7 → k.getMsbD p = k'.getMsbD p) → desKeySchedule k = desKeySchedule k'

/-! ## DES rounds -/

/-- 00_scope.md R11 with 45_des_feistel.md R246, for DES_IP and DES_FP (R250, R251): position j of the result is position
`T[j]` of D. -/
def Obligations.DesIpFpPermuteTheBits : Prop :=
  ∀ s, ∃ u v : Vector Word 2,
    exec .desIp s = .next (finished { s with dstate := u })
      ∧ exec .desFp s = .next (finished { s with dstate := v })
      ∧ ∀ j, j < 64 →
          (u[0] ++ u[1]).getMsbD j = (s.dstate[0] ++ s.dstate[1]).getMsbD (desIpTable.getD j 0 - 1)
            ∧ (v[0] ++ v[1]).getMsbD j = (s.dstate[0] ++ s.dstate[1]).getMsbD (desFpTable.getD j 0 - 1)

/-- 45_des_feistel.md R240 to R244, for DES_F (R252), with the latched strategy. -/
def Obligations.DesFFollowsTheStrategy : Prop :=
  ∀ s (k : BitVec 4), s.dkv = true →
    ∃ v : Word, exec (.desF k) s = .next (finished { s with res := v })
      ∧ (s.dstratL = 0 → ∃ y : Word, v = permute 32 desPTable y
          ∧ ∀ i, i < 8 →
              let x := permute 48 desETable s.dstate[1] ^^^ subkey s k
              y.extractLsb' (28 - 4 * i) 4 = desSbox i (groupRow x i) (groupColumn x i))
      ∧ (s.dstratL = 1 → ∀ j, j < 32 →
          v.getMsbD j = (s.dstate[1].getMsbD (desETable.getD j 0 - 1) ^^ (subkey s k).getMsbD j))
      ∧ (s.dstratL = 2 → ∀ j, j < 32 →
          v.getMsbD j = (s.dstate[1].getMsbD (desETable.getD j 0 - 1) && (subkey s k).getMsbD j))

/-- 45_des_feistel.md R247, R253: the new halves, and the inverse that R247 gives, `(R ^ Feistel(L, K), L)`. The value of
strategy 3 is a free value (log 6), and the clauses hold whatever it is. -/
def Obligations.DesRoundSwapsAndMixes : Prop :=
  ∀ s (k : BitVec 4), s.dkv = true →
    ∃ u : Vector Word 2, exec (.desRound k) s = .next (finished { s with dstate := u })
      ∧ u[0] = s.dstate[1] ∧ u[1] = s.dstate[0] ^^^ feistel s.dstratL s.dstate[1] (subkey s k)
      ∧ s.dstate[0] = u[1] ^^^ feistel s.dstratL u[0] (subkey s k) ∧ s.dstate[1] = u[0]

/-- 45_des_feistel.md R254, and R253's corner case: DES_ROUND k, DES_SWAP, DES_ROUND k, DES_SWAP restores DSTATE.
Strategy 3 is a free value (log 6). -/
def Obligations.DesSwapExchangesTheHalves : Prop :=
  ∀ s, exec .desSwap s = .next (finished { s with dstate := #v[s.dstate[1], s.dstate[0]] })
    ∧ ∀ k, s.dkv = true → execSeq [.desRound k, .desSwap, .desRound k, .desSwap] s = .next (finished s)

/-- 45_des_feistel.md R245. -/
def Obligations.XorAndAndStrategiesUseFewBits : Prop :=
  (∀ r r' : Word, ∀ k k' : Subkey, (∀ j, j < 21 ∨ j = 31 → r.getMsbD j = r'.getMsbD j) →
      k.extractLsb' 16 32 = k'.extractLsb' 16 32 → feistelXor r k = feistelXor r' k' ∧ feistelAnd r k = feistelAnd r' k')
    ∧ (∀ k, feistelAnd 0 k = 0) ∧ (∀ r k, k.extractLsb' 16 32 = 0 → feistelAnd r k = 0) ∧ feistelXor 0 0 = 0

/-! ## Whole blocks -/

/-- 46_block_drivers.md R270, R272 and 44_aes_round.md R227: AES_ENC completes, and leaves what the primitive commands leave
one after another. Words above W[59], asked for only when NR is 15, are free values (log 5). -/
def Obligations.AesEncIsItsRounds : Prop :=
  ∀ s, s.akv = true → ∃ u : Vector Word 4, exec .aesEnc s = .next (finished { s with state := u })
    ∧ execSeq (aesEncCommands s.nr.toNat) s = .next (finished { s with state := u })

/-- 46_block_drivers.md R271, R273: AES_DEC completes, and leaves what the inverse primitives leave in R271's order.
Words above W[59], asked for only when NR is 15, are free values (log 5). -/
def Obligations.AesDecIsItsRounds : Prop :=
  ∀ s, s.akv = true → ∃ u : Vector Word 4, exec .aesDec s = .next (finished { s with state := u })
    ∧ execSeq (aesDecCommands s.nr.toNat) s = .next (finished { s with state := u })

/-- 46_block_drivers.md R278, R273: AES_DEC undoes AES_ENC and AES_ENC undoes AES_DEC, for every schedule and block. With NR
15, which no run reaches, words above W[59] are free values (the model's choice, log 5), and it holds whatever they are. -/
def Obligations.AesDecUndoesAesEnc : Prop :=
  ∀ s, s.akv = true →
    execSeq [.aesEnc, .aesDec] s = .next (finished s) ∧ execSeq [.aesDec, .aesEnc] s = .next (finished s)

/-- 46_block_drivers.md R274 to R277: DES_ENC and DES_DEC complete, and leave what the primitive commands leave.
Strategy 3 is a free value (log 6). -/
def Obligations.DesBlockCommandsAreTheirRounds : Prop :=
  ∀ s, s.dkv = true → ∃ u v : Vector Word 2,
    exec .desEnc s = .next (finished { s with dstate := u })
      ∧ execSeq desEncCommands s = .next (finished { s with dstate := u })
      ∧ exec .desDec s = .next (finished { s with dstate := v })
      ∧ execSeq desDecCommands s = .next (finished { s with dstate := v })

/-- 46_block_drivers.md R275, R278: DES_DEC undoes DES_ENC and DES_ENC undoes DES_DEC, for every schedule, block and
strategy. Strategy 3, which no run latches, is a free value (the model's choice, log 6), and it holds whatever it is. -/
def Obligations.DesDecUndoesDesEnc : Prop :=
  ∀ s, s.dkv = true →
    execSeq [.desEnc, .desDec] s = .next (finished s) ∧ execSeq [.desDec, .desEnc] s = .next (finished s)

/-- The source's known AES-128 vector (95_test_vectors.md V-AES-1) and the DES worked example (46_block_drivers.md R276). -/
def Obligations.KnownVectorsAreReproduced : Prop :=
  (∃ t, execSeq [.aesKexp, .aesEnc]
      { State.reset with
        ctrl := 0x10
        key := #v[0x00010203, 0x04050607, 0x08090A0B, 0x0C0D0E0F, 0, 0, 0, 0]
        state := #v[0x00112233, 0x44556677, 0x8899AABB, 0xCCDDEEFF] } = .next t
      ∧ t.state = #v[0x69C4E0D8, 0x6A7B0430, 0xD8CDB780, 0x70B4C55A] ∧ statusWord t = 0x0000A002)
    ∧ ∃ t, execSeq [.desKexp, .desEnc]
      { State.reset with
        ctrl := 0x08
        key := #v[0x13345779, 0x9BBCDFF1, 0, 0, 0, 0, 0, 0]
        dstate := #v[0x01234567, 0x89ABCDEF] } = .next t
      ∧ t.dstate = #v[0x85E81354, 0x0F0AB405] ∧ statusWord t = 0x00000004

/-! ## Errors and completion -/

/-- 60_exceptions.md R325: the seven commands that read a schedule, while there is none. The fault record is the model's own
(log 8). -/
def Obligations.NoScheduleIsRaised : Prop :=
  ∀ i s, (aesScheduleCommand i = true → s.akv = false → exec i s = .next (failed 5 s))
    ∧ (desScheduleCommand i = true → s.dkv = false → exec i s = .next (failed 5 s))

/-- 60_exceptions.md R326. The fault record is the model's own (log 8). -/
def Obligations.RangeIsRaised : Prop :=
  ∀ s, (∀ rnd : BitVec 4, s.akv = true → s.nr.toNat < rnd.toNat → exec (.aesAddroundkey rnd) s = .next (failed 6 s))
    ∧ (∀ (tbl : BitVec 4) (idx : BitVec 9) n, (tbl.toNat, n) ∈ romCounts → n ≤ idx.toNat →
        exec (.romRead tbl idx) s = .next (failed 6 s))
    ∧ ∀ k t, exec (.desF k) s = .next t ∨ exec (.desRound k) s = .next t → t.err ≠ 6

/-- 30_encoding.md R94, 60_exceptions.md R321: a word that encodes no legal command is accepted like any command and
completes with ILLEGAL_CMD and no other effect. The fault record is the model's own (log 8). -/
def Obligations.IllegalWordsCompleteWithIllegalCmd : Prop :=
  ∀ c s, (∀ i : Instr, i.wf = true → encode i ≠ c) →
    engineStep c s = .next (failed 4 s)
      ∧ (s.busy = false → blockOf (hostWrite 0x008 32 c s) = blockOf { s with cmd := c, pending := some c, busy := true })

/-- 60_exceptions.md R331: whatever the word, a step that records a code writes nothing but ERR, BUSY and PENDING (and the
model's fault record, log 8). -/
def Obligations.FailedCommandsWriteNothing : Prop :=
  ∀ c s t, engineStep c s = .next t → t.err ≠ 0 → t = failed t.err s

/-- 60_exceptions.md R327. -/
def Obligations.CommandsReportOnlyTheirCodes : Prop :=
  ∀ i s t, exec i s = .next t → t.err = 0 ∨ t.err ∈ errorCodes i

/-- 60_exceptions.md R335: the first condition in the order is reported, whatever else holds. The last clause is of terms
that no word decodes to, and their meaning is the model's choice (log 15); the fault record is the model's own (log 8). -/
def Obligations.ErrorPriorityIsFixed : Prop :=
  (∀ c r s, decode c = .error r → engineStep c s = .next (failed 4 s))
    ∧ (∀ s, klen s ≠ 8 → dstrat s = 3 → exec .desKexp s = .next (failed 1 s))
    ∧ (∀ s rnd, s.akv = false → exec (.aesAddroundkey rnd) s = .next (failed 5 s))
    ∧ ∀ s (tbl : BitVec 4) idx, 11 ≤ tbl.toNat → exec (.romRead tbl idx) s = .next (failed 4 s)

/-- 60_exceptions.md R330, R332: every engine step completes, and no step of the machine stops. -/
def Obligations.StepsAlwaysComplete : Prop :=
  (∀ c s, ∃ t, engineStep c s = .next t ∧ t.pending = none ∧ t.busy = false) ∧ ∀ s, ∃ t, step s = .next t

/-! ## Encoding -/

/-- Decode and encode agree on every legal command, with every operand at every value. -/
def Obligations.DecodeOfEncodeIsTheCommand : Prop := ∀ i : Instr, i.wf = true → decode (encode i) = .ok i

/-- 30_encoding.md R92 with the match and mask of spec/opcode_table.json, row by row. -/
def Obligations.DecodeFollowsMatchAndMask : Prop :=
  ∀ c : Word,
    (decode c = .ok .nop ↔ c &&& 0xFFFFFFFF = 0x00000000) ∧ (decode c = .ok .srst ↔ c &&& 0xFFFFFFFF = 0x00000001)
    ∧ (decode c = .ok .aesKexp ↔ c &&& 0xFFFFFFFF = 0x00000010)
    ∧ (decode c = .ok .aesSubbytes ↔ c &&& 0xFFFFFFFF = 0x00000011)
    ∧ (decode c = .ok .aesInvsubbytes ↔ c &&& 0xFFFFFFFF = 0x00000012)
    ∧ (decode c = .ok .aesShiftrows ↔ c &&& 0xFFFFFFFF = 0x00000013)
    ∧ (decode c = .ok .aesInvshiftrows ↔ c &&& 0xFFFFFFFF = 0x00000014)
    ∧ (decode c = .ok .aesMixcolumns ↔ c &&& 0xFFFFFFFF = 0x00000015)
    ∧ (decode c = .ok .aesInvmixcolumns ↔ c &&& 0xFFFFFFFF = 0x00000016)
    ∧ (∀ r, decode c = .ok (.aesAddroundkey r) ↔ c &&& 0xFFFFF0FF = 0x00000017 ∧ r = c.extractLsb' 8 4)
    ∧ (decode c = .ok .aesEnc ↔ c &&& 0xFFFFFFFF = 0x00000018) ∧ (decode c = .ok .aesDec ↔ c &&& 0xFFFFFFFF = 0x00000019)
    ∧ (decode c = .ok .aesRotword ↔ c &&& 0xFFFFFFFF = 0x0000001A)
    ∧ (decode c = .ok .aesSubword ↔ c &&& 0xFFFFFFFF = 0x0000001B)
    ∧ (decode c = .ok .gfXtime ↔ c &&& 0xFFFFFFFF = 0x00000020) ∧ (decode c = .ok .gfMul ↔ c &&& 0xFFFFFFFF = 0x00000021)
    ∧ (∀ t i, decode c = .ok (.romRead t i) ↔
        c &&& 0xFE000FFF = 0x00000030 ∧ t = c.extractLsb' 12 4 ∧ i = c.extractLsb' 16 9 ∧ t.toNat ≤ 10)
    ∧ (decode c = .ok .desKexp ↔ c &&& 0xFFFFFFFF = 0x00000040) ∧ (decode c = .ok .desIp ↔ c &&& 0xFFFFFFFF = 0x00000041)
    ∧ (decode c = .ok .desFp ↔ c &&& 0xFFFFFFFF = 0x00000042)
    ∧ (∀ r, decode c = .ok (.desF r) ↔ c &&& 0xFFFFF0FF = 0x00000043 ∧ r = c.extractLsb' 8 4)
    ∧ (∀ r, decode c = .ok (.desRound r) ↔ c &&& 0xFFFFF0FF = 0x00000044 ∧ r = c.extractLsb' 8 4)
    ∧ (decode c = .ok .desSwap ↔ c &&& 0xFFFFFFFF = 0x00000045) ∧ (decode c = .ok .desEnc ↔ c &&& 0xFFFFFFFF = 0x00000046)
    ∧ (decode c = .ok .desDec ↔ c &&& 0xFFFFFFFF = 0x00000047)

/-- Words written out from 30_encoding.md R90 and R93. -/
def Obligations.WrittenOutWordsDecode : Prop :=
  decode 0x00000001 = .ok .srst ∧ decode 0x00000010 = .ok .aesKexp ∧ decode 0x00000A17 = .ok (.aesAddroundkey 10)
    ∧ decode 0x00000021 = .ok .gfMul ∧ decode 0x01FFA030 = .ok (.romRead 10 0x1FF)
    ∧ decode 0x00000F44 = .ok (.desRound 15) ∧ decode 0x00000046 = .ok .desEnc
    ∧ decode 0x0000B030 = .error .romTableIllegal ∧ decode 0x00010043 = .error .unusedFieldNotZero
    ∧ decode 0x000000FF = .error .unassignedOpcode

/-! ## The step -/

/-- 70_reset_and_hazards.md R371, 30_encoding.md R94: at the engine's turn a step is the pending command's meaning, or, for a
word that is no legal command, its completion with ILLEGAL_CMD; `withFetchWord` places a command there. The form of the turn
and of `withFetchWord` is the model's choice (log 1, 3), and the fault record is the model's own (log 8). -/
def Obligations.StepRunsTheDecodedCommand : Prop :=
  (∀ s c i, s.pending = some c → s.wait = 0 ∨ s.events = [] → decode c = .ok i → step s = exec i s)
    ∧ (∀ s c r, s.pending = some c → s.wait = 0 ∨ s.events = [] → decode c = .error r → step s = .next (failed 4 s))
    ∧ ∀ (s : State) (c : Word) i, decode c = .ok i →
      step (s.withFetchWord 32 c.toNat) = exec i { s with cmd := c, pending := some c, busy := true, wait := 0 }

/-- 20_memory.md R60, R71, 30_encoding.md R99, 70_reset_and_hazards.md R372, R360: outside events come in order, before the
engine's step while there are turns to wait; with nothing to do the block is unchanged. A write is HostWrite and a read
HostRead; a poll reads STATUS and stays to come exactly while it shows BUSY. What a reset does is ResetEventForgetsTheBlock.
The form of the waiting and the record of what reads return are the model's choice (log 2, 3, 9). -/
def Obligations.OutsideEventsComeInOrder : Prop :=
  ∀ s, (∀ e rest, s.events = e :: rest → s.pending = none → step s = .next (perform e { s with events := rest }))
    ∧ (∀ e rest c n, s.events = e :: rest → s.pending = some c → s.wait = n + 1 →
        step s = .next (perform e { s with events := rest, wait := n }))
    ∧ (s.events = [] → s.pending = none → step s = .next s)
    ∧ (∀ off width v, perform (.write off width v) s = hostWrite off width v s)
    ∧ (∀ off width, perform (.read off width) s =
        { (hostRead off width s).2 with returned := (hostRead off width s).1 :: s.returned })
    ∧ (s.busy = true →
        perform .poll s = { s with returned := statusWord s :: s.returned, events := .poll :: s.events })
    ∧ (s.busy = false → perform .poll s = { s with returned := statusWord s :: s.returned })

/-- 70_reset_and_hazards.md R373, R372: a pending command reaches its engine step or a reset within `wait + 1` steps (the
bound counts the model's steps, log 3). -/
def Obligations.PendingCommandsEnd : Prop :=
  ∀ s, BlockInv s → s.pending.isSome = true → ∃ n t, n ≤ s.wait + 1 ∧ core.run n s = .next t ∧ t.pending = none ∧ t.busy = false

/-- 10_state.md R33, R34: the schedules and their latches change only in the engine step of the family's KEXP, or in the
engine step of SRST or a reset that is performed. -/
def Obligations.OnlyKexpAndResetsWriteSchedules : Prop :=
  ∀ s t, step s = .next t →
    (t.w ≠ s.w ∨ t.nr ≠ s.nr ∨ t.akv ≠ s.akv →
      (∃ c, engineCommand s = some c ∧ decode c = .ok .aesKexp) ∨ resetsNext s)
    ∧ (t.dk ≠ s.dk ∨ t.dstratL ≠ s.dstratL ∨ t.dkv ≠ s.dkv →
      (∃ c, engineCommand s = some c ∧ decode c = .ok .desKexp) ∨ resetsNext s)

/-- 10_state.md R37: ERR changes only by a completion or a reset; BERR rises only by a bus error and OVR only by a write
while busy; each falls only by a write of 1 to its STATUS bit while idle, by SRST or by a reset. -/
def Obligations.FlagsHaveTheirWriters : Prop :=
  ∀ s t, step s = .next t →
    let cleared := fun bit => s.busy = false
      ∧ ∃ v : Word, performedEvent s = some (.write 0x00C 32 v) ∧ v.getLsbD bit = true
    (t.err ≠ s.err → (engineCommand s).isSome = true ∨ resetsNext s)
    ∧ (s.berr = false → t.berr = true →
        (∃ off width, performedEvent s = some (.read off width) ∧ badAccess off.toNat width)
          ∨ ∃ off width v, performedEvent s = some (.write off width v)
              ∧ (badAccess off.toNat width ∨ readOnlyOffset off.toNat))
    ∧ (s.berr = true → t.berr = false → cleared 3 ∨ resetsNext s)
    ∧ (s.ovr = false → t.ovr = true →
        s.busy = true ∧ ∃ off width v, performedEvent s = some (.write off width v))
    ∧ (s.ovr = true → t.ovr = false → cleared 4 ∨ resetsNext s)

/-- 10_state.md R23, R26, 70_reset_and_hazards.md R376: KEY and CTRL bear on no command but the KEXPs (and SRST, which
clears them): every other command does the same whatever they hold. -/
def Obligations.KeyAndCtrlBearOnlyOnKexp : Prop :=
  ∀ i s t (key : Vector Word 8) (ctrl : Word), i ≠ .aesKexp → i ≠ .desKexp → i ≠ .srst →
    exec i s = .next t → exec i { s with key := key, ctrl := ctrl } = .next { t with key := key, ctrl := ctrl }

/-! ## The host window -/

/-- 20_memory.md R62 and 10_state.md R22 to R32: what each mapped offset reads as while idle, with no side effect. -/
def Obligations.IdleReadsReturnTheRegisters : Prop :=
  ∀ s, s.busy = false →
    hostRead 0x000 32 s = (0x434F5245, s) ∧ hostRead 0x004 32 s = (s.ctrl, s) ∧ hostRead 0x008 32 s = (s.cmd, s)
    ∧ hostRead 0x00C 32 s = (statusWord s, s) ∧ hostRead 0x048 32 s = (s.opa, s) ∧ hostRead 0x04C 32 s = (s.res, s)
    ∧ (∀ i : Fin 8, hostRead (BitVec.ofNat 12 (0x010 + 4 * i)) 32 s = (s.key[i], s))
    ∧ (∀ c : Fin 4, hostRead (BitVec.ofNat 12 (0x030 + 4 * c)) 32 s = (s.state[c], s))
    ∧ (∀ h : Fin 2, hostRead (BitVec.ofNat 12 (0x040 + 4 * h)) 32 s = (s.dstate[h], s))
    ∧ (∀ i : Fin 60, hostRead (BitVec.ofNat 12 (0x100 + 4 * i)) 32 s = (s.w[i], s))
    ∧ ∀ k : Fin 16, hostRead (BitVec.ofNat 12 (0x200 + 8 * k)) 32 s = ((s.dk[k].extractLsb' 32 16).setWidth 32, s)
        ∧ hostRead (BitVec.ofNat 12 (0x204 + 8 * k)) 32 s = (s.dk[k].extractLsb' 0 32, s)

/-- 10_state.md R23, R26 to R29: what a write to each plain register stores while idle. -/
def Obligations.IdleWritesStoreTheirRegister : Prop :=
  ∀ s v, s.busy = false →
    hostWrite 0x004 32 v s = { s with ctrl := v &&& 0x0000033F } ∧ hostWrite 0x048 32 v s = { s with opa := v }
    ∧ (∀ i : Fin 8, hostWrite (BitVec.ofNat 12 (0x010 + 4 * i)) 32 v s = { s with key := s.key.set i v })
    ∧ (∀ c : Fin 4, hostWrite (BitVec.ofNat 12 (0x030 + 4 * c)) 32 v s = { s with state := s.state.set c v })
    ∧ ∀ h : Fin 2, hostWrite (BitVec.ofNat 12 (0x040 + 4 * h)) 32 v s = { s with dstate := s.dstate.set h v }

/-- 10_state.md R25: the fields of STATUS and its write-1-to-clear bits. -/
def Obligations.StatusReadsAndClears : Prop :=
  ∀ s, (statusWord s).getLsbD 0 = s.busy ∧ (statusWord s).getLsbD 1 = s.akv ∧ (statusWord s).getLsbD 2 = s.dkv
    ∧ (statusWord s).getLsbD 3 = s.berr ∧ (statusWord s).getLsbD 4 = s.ovr
    ∧ (statusWord s).extractLsb' 5 3 = 0 ∧ (statusWord s).extractLsb' 8 4 = s.err
    ∧ (statusWord s).extractLsb' 12 4 = s.nr ∧ (statusWord s).extractLsb' 16 2 = s.dstratL
    ∧ (statusWord s).extractLsb' 18 14 = 0
    ∧ ∀ v : Word, s.busy = false → hostWrite 0x00C 32 v s =
        { s with
          berr := if v.getLsbD 3 then false else s.berr
          ovr := if v.getLsbD 4 then false else s.ovr }

/-- 20_memory.md R65, R67: what a bus error is and does, idle and busy; a legal read sets nothing. The fault record is the
model's own (log 8). -/
def Obligations.BusErrorsSetBerr : Prop :=
  ∀ (off : BitVec 12) width v s,
    (badAccess off.toNat width → hostRead off width s = (0, { s with berr := true, ghostFault := true }))
    ∧ (¬ badAccess off.toNat width → (hostRead off width s).2.berr = s.berr)
    ∧ (badAccess off.toNat width ∨ readOnlyOffset off.toNat → s.busy = false →
        hostWrite off width v s = { s with berr := true, ghostFault := true })
    ∧ (badAccess off.toNat width ∨ readOnlyOffset off.toNat → s.busy = true →
        hostWrite off width v s = { s with berr := true, ovr := true, ghostFault := true })

/-- 70_reset_and_hazards.md R368: every write while busy is dropped. The fault record is the model's own (log 8). -/
def Obligations.BusyWritesAreDropped : Prop :=
  ∀ (off : BitVec 12) width v s, s.busy = true →
    (¬ (badAccess off.toNat width ∨ readOnlyOffset off.toNat) →
      hostWrite off width v s = { s with ovr := true, ghostFault := true })
    ∧ (badAccess off.toNat width ∨ readOnlyOffset off.toNat →
      hostWrite off width v s = { s with ovr := true, berr := true, ghostFault := true })

/-- 70_reset_and_hazards.md R369: acceptance. The latency bookkeeping is the model's own (log 3). -/
def Obligations.IdleCmdWriteIsAccepted : Prop :=
  ∀ s c, s.busy = false → ∃ t, hostWrite 0x008 32 c s = t ∧ t.cmd = c ∧ t.pending = some c ∧ t.busy = true
    ∧ blockOf t = blockOf { s with cmd := c, pending := some c, busy := true }
    ∧ t.ghostFault = s.ghostFault ∧ t.events = s.events ∧ t.returned = s.returned ∧ t.draws = s.draws

/-- 70_reset_and_hazards.md R370: while busy a datapath register reads as a draw of its own and the others as they are. -/
def Obligations.BusyReadsOfResultsAreDraws : Prop :=
  ∀ s, s.busy = true →
    (∀ r : Reg, r.datapath = true → hostRead r.offset 32 s = (Config.busyRead s.draws, { s with draws := s.draws + 1 }))
    ∧ hostRead 0x000 32 s = (0x434F5245, s) ∧ hostRead 0x004 32 s = (s.ctrl, s) ∧ hostRead 0x008 32 s = (s.cmd, s)
    ∧ hostRead 0x00C 32 s = (statusWord s, s) ∧ hostRead 0x048 32 s = (s.opa, s)
    ∧ ∀ i : Fin 8, hostRead (BitVec.ofNat 12 (0x010 + 4 * i)) 32 s = (s.key[i], s)

/-! ## The host's side (outside the block) -/

/-- 48_host_padding_ecb.md R301 to R303, R309: for both block sizes, unpad undoes pad, and the padded length. -/
def Obligations.UnpadUndoesPad : Prop :=
  ∀ (f : Family) (m : List Byte), unpad (pad f.blockSize m) = m
    ∧ (pad f.blockSize m).length = f.blockSize * (m.length / f.blockSize + 1)

/-- 48_host_padding_ecb.md R309, R303: "for all supported key lengths and all byte-string messages (including empty),
`decrypt(encrypt(m)) == m`", through the bus operations, for both families and every strategy, once a schedule is valid.
The host's driver is outside the block and its form is the model's (log 16); words above W[59] and strategy 3 are free
values (log 5, 6). -/
def Obligations.MessagesSurviveTheRoundTrip : Prop :=
  ∀ (f : Family) (m : List Byte) s, s.busy = false → s.pending = none →
    (f = .aes → s.akv = true) → (f = .des → s.dkv = true) →
    ∃ c t u, hostEncrypt f m s = .ok (c, t) ∧ hostDecrypt f c t = .ok (m, u)
      ∧ c.length = f.blockSize * (m.length / f.blockSize + 1)

/-- 30_encoding.md R100 with 42_aes_key_schedule.md R173, R176 and 43_des_key_schedule.md R194: through the bus operations
AES_SETKEY leaves the whole expansion of its key or reports KEY_LENGTH, and DES_SETKEY leaves the schedule of its key with
its strategy. The calls' form is the model's (log 16), and so are AES_SETKEY of 64 bytes or more, whose length CTRL shows
modulo 64, and DES_SETKEY with method 3 (log 20). -/
def Obligations.SetkeyExpandsTheKeyOrReportsItsError : Prop :=
  ∀ s, s.busy = false →
    (∀ (key : List Byte) nk nr, (key.length % 64, nk, nr) ∈ [(16, 4, 10), (24, 6, 12), (32, 8, 14)] →
      ∃ t, hostAesSetkey key s = .ok t ∧ t.akv = true ∧ t.nr = BitVec.ofNat 4 nr
        ∧ t.ctrl = BitVec.ofNat 32 key.length &&& 0x0000033F
        ∧ t.w = padTo 60 0 (keyExpansion nk nr (bytesToWords (key.take (key.length % 64)))))
    ∧ (∀ key : List Byte, key.length % 64 ≠ 16 → key.length % 64 ≠ 24 → key.length % 64 ≠ 32 →
      hostAesSetkey key s = .error (.command 1))
    ∧ (∀ (key : Vector Byte 8) method, method ≠ 3 →
      ∃ t, hostDesSetkey key method s = .ok t ∧ t.dkv = true ∧ t.dstratL = method
        ∧ t.dk.toList = desKeySchedule
            (key[0] ++ key[1] ++ key[2] ++ key[3] ++ key[4] ++ key[5] ++ key[6] ++ key[7]))
    ∧ ∀ key, hostDesSetkey key 3 s = .error (.command 2)
end

