-- ==== Sys2Proof/Laws/State.lean ====
section
/-! SUPPORT. One lemma for each field of State and each named update of it, so that no proof unfolds an update. -/

namespace Sys2Proof.Machine

/-! ## complete -/

@[simp] theorem complete_ctrl (e : ErrCode) (s : State) : (complete e s).ctrl = s.ctrl := rfl
@[simp] theorem complete_cmd (e : ErrCode) (s : State) : (complete e s).cmd = s.cmd := rfl
@[simp] theorem complete_key (e : ErrCode) (s : State) : (complete e s).key = s.key := rfl
@[simp] theorem complete_state (e : ErrCode) (s : State) : (complete e s).state = s.state := rfl
@[simp] theorem complete_dstate (e : ErrCode) (s : State) : (complete e s).dstate = s.dstate := rfl
@[simp] theorem complete_opa (e : ErrCode) (s : State) : (complete e s).opa = s.opa := rfl
@[simp] theorem complete_res (e : ErrCode) (s : State) : (complete e s).res = s.res := rfl
@[simp] theorem complete_w (e : ErrCode) (s : State) : (complete e s).w = s.w := rfl
@[simp] theorem complete_dk (e : ErrCode) (s : State) : (complete e s).dk = s.dk := rfl
@[simp] theorem complete_akv (e : ErrCode) (s : State) : (complete e s).akv = s.akv := rfl
@[simp] theorem complete_nr (e : ErrCode) (s : State) : (complete e s).nr = s.nr := rfl
@[simp] theorem complete_dkv (e : ErrCode) (s : State) : (complete e s).dkv = s.dkv := rfl
@[simp] theorem complete_dstratL (e : ErrCode) (s : State) : (complete e s).dstratL = s.dstratL := rfl
@[simp] theorem complete_berr (e : ErrCode) (s : State) : (complete e s).berr = s.berr := rfl
@[simp] theorem complete_ovr (e : ErrCode) (s : State) : (complete e s).ovr = s.ovr := rfl
@[simp] theorem complete_err (e : ErrCode) (s : State) : (complete e s).err = e.code := rfl
@[simp] theorem complete_busy (e : ErrCode) (s : State) : (complete e s).busy = false := rfl
@[simp] theorem complete_pending (e : ErrCode) (s : State) : (complete e s).pending = none := rfl
@[simp] theorem complete_ghostFault (e : ErrCode) (s : State) : (complete e s).ghostFault = (s.ghostFault || decide (e ≠ .none)) := rfl
@[simp] theorem complete_events (e : ErrCode) (s : State) : (complete e s).events = s.events := rfl
@[simp] theorem complete_returned (e : ErrCode) (s : State) : (complete e s).returned = s.returned := rfl
@[simp] theorem complete_wait (e : ErrCode) (s : State) : (complete e s).wait = s.wait := rfl
@[simp] theorem complete_latencyPlan (e : ErrCode) (s : State) : (complete e s).latencyPlan = s.latencyPlan := rfl
@[simp] theorem complete_accepted (e : ErrCode) (s : State) : (complete e s).accepted = s.accepted := rfl
@[simp] theorem complete_draws (e : ErrCode) (s : State) : (complete e s).draws = s.draws := rfl

/-! ## hardReset -/

@[simp] theorem hardReset_ctrl (s : State) : (hardReset s).ctrl = State.reset.ctrl := rfl
@[simp] theorem hardReset_cmd (s : State) : (hardReset s).cmd = State.reset.cmd := rfl
@[simp] theorem hardReset_key (s : State) : (hardReset s).key = State.reset.key := rfl
@[simp] theorem hardReset_state (s : State) : (hardReset s).state = State.reset.state := rfl
@[simp] theorem hardReset_dstate (s : State) : (hardReset s).dstate = State.reset.dstate := rfl
@[simp] theorem hardReset_opa (s : State) : (hardReset s).opa = State.reset.opa := rfl
@[simp] theorem hardReset_res (s : State) : (hardReset s).res = State.reset.res := rfl
@[simp] theorem hardReset_w (s : State) : (hardReset s).w = State.reset.w := rfl
@[simp] theorem hardReset_dk (s : State) : (hardReset s).dk = State.reset.dk := rfl
@[simp] theorem hardReset_akv (s : State) : (hardReset s).akv = State.reset.akv := rfl
@[simp] theorem hardReset_nr (s : State) : (hardReset s).nr = State.reset.nr := rfl
@[simp] theorem hardReset_dkv (s : State) : (hardReset s).dkv = State.reset.dkv := rfl
@[simp] theorem hardReset_dstratL (s : State) : (hardReset s).dstratL = State.reset.dstratL := rfl
@[simp] theorem hardReset_berr (s : State) : (hardReset s).berr = State.reset.berr := rfl
@[simp] theorem hardReset_ovr (s : State) : (hardReset s).ovr = State.reset.ovr := rfl
@[simp] theorem hardReset_err (s : State) : (hardReset s).err = State.reset.err := rfl
@[simp] theorem hardReset_busy (s : State) : (hardReset s).busy = State.reset.busy := rfl
@[simp] theorem hardReset_pending (s : State) : (hardReset s).pending = State.reset.pending := rfl
@[simp] theorem hardReset_ghostFault (s : State) : (hardReset s).ghostFault = s.ghostFault := rfl
@[simp] theorem hardReset_events (s : State) : (hardReset s).events = s.events := rfl
@[simp] theorem hardReset_returned (s : State) : (hardReset s).returned = s.returned := rfl
@[simp] theorem hardReset_wait (s : State) : (hardReset s).wait = State.reset.wait := rfl
@[simp] theorem hardReset_latencyPlan (s : State) : (hardReset s).latencyPlan = s.latencyPlan := rfl
@[simp] theorem hardReset_accepted (s : State) : (hardReset s).accepted = s.accepted := rfl
@[simp] theorem hardReset_draws (s : State) : (hardReset s).draws = s.draws := rfl

/-! ## setBerr -/

@[simp] theorem setBerr_ctrl (s : State) : (setBerr s).ctrl = s.ctrl := rfl
@[simp] theorem setBerr_cmd (s : State) : (setBerr s).cmd = s.cmd := rfl
@[simp] theorem setBerr_key (s : State) : (setBerr s).key = s.key := rfl
@[simp] theorem setBerr_state (s : State) : (setBerr s).state = s.state := rfl
@[simp] theorem setBerr_dstate (s : State) : (setBerr s).dstate = s.dstate := rfl
@[simp] theorem setBerr_opa (s : State) : (setBerr s).opa = s.opa := rfl
@[simp] theorem setBerr_res (s : State) : (setBerr s).res = s.res := rfl
@[simp] theorem setBerr_w (s : State) : (setBerr s).w = s.w := rfl
@[simp] theorem setBerr_dk (s : State) : (setBerr s).dk = s.dk := rfl
@[simp] theorem setBerr_akv (s : State) : (setBerr s).akv = s.akv := rfl
@[simp] theorem setBerr_nr (s : State) : (setBerr s).nr = s.nr := rfl
@[simp] theorem setBerr_dkv (s : State) : (setBerr s).dkv = s.dkv := rfl
@[simp] theorem setBerr_dstratL (s : State) : (setBerr s).dstratL = s.dstratL := rfl
@[simp] theorem setBerr_berr (s : State) : (setBerr s).berr = true := rfl
@[simp] theorem setBerr_ovr (s : State) : (setBerr s).ovr = s.ovr := rfl
@[simp] theorem setBerr_err (s : State) : (setBerr s).err = s.err := rfl
@[simp] theorem setBerr_busy (s : State) : (setBerr s).busy = s.busy := rfl
@[simp] theorem setBerr_pending (s : State) : (setBerr s).pending = s.pending := rfl
@[simp] theorem setBerr_ghostFault (s : State) : (setBerr s).ghostFault = true := rfl
@[simp] theorem setBerr_events (s : State) : (setBerr s).events = s.events := rfl
@[simp] theorem setBerr_returned (s : State) : (setBerr s).returned = s.returned := rfl
@[simp] theorem setBerr_wait (s : State) : (setBerr s).wait = s.wait := rfl
@[simp] theorem setBerr_latencyPlan (s : State) : (setBerr s).latencyPlan = s.latencyPlan := rfl
@[simp] theorem setBerr_accepted (s : State) : (setBerr s).accepted = s.accepted := rfl
@[simp] theorem setBerr_draws (s : State) : (setBerr s).draws = s.draws := rfl

/-! ## setOvr -/

@[simp] theorem setOvr_ctrl (s : State) : (setOvr s).ctrl = s.ctrl := rfl
@[simp] theorem setOvr_cmd (s : State) : (setOvr s).cmd = s.cmd := rfl
@[simp] theorem setOvr_key (s : State) : (setOvr s).key = s.key := rfl
@[simp] theorem setOvr_state (s : State) : (setOvr s).state = s.state := rfl
@[simp] theorem setOvr_dstate (s : State) : (setOvr s).dstate = s.dstate := rfl
@[simp] theorem setOvr_opa (s : State) : (setOvr s).opa = s.opa := rfl
@[simp] theorem setOvr_res (s : State) : (setOvr s).res = s.res := rfl
@[simp] theorem setOvr_w (s : State) : (setOvr s).w = s.w := rfl
@[simp] theorem setOvr_dk (s : State) : (setOvr s).dk = s.dk := rfl
@[simp] theorem setOvr_akv (s : State) : (setOvr s).akv = s.akv := rfl
@[simp] theorem setOvr_nr (s : State) : (setOvr s).nr = s.nr := rfl
@[simp] theorem setOvr_dkv (s : State) : (setOvr s).dkv = s.dkv := rfl
@[simp] theorem setOvr_dstratL (s : State) : (setOvr s).dstratL = s.dstratL := rfl
@[simp] theorem setOvr_berr (s : State) : (setOvr s).berr = s.berr := rfl
@[simp] theorem setOvr_ovr (s : State) : (setOvr s).ovr = true := rfl
@[simp] theorem setOvr_err (s : State) : (setOvr s).err = s.err := rfl
@[simp] theorem setOvr_busy (s : State) : (setOvr s).busy = s.busy := rfl
@[simp] theorem setOvr_pending (s : State) : (setOvr s).pending = s.pending := rfl
@[simp] theorem setOvr_ghostFault (s : State) : (setOvr s).ghostFault = true := rfl
@[simp] theorem setOvr_events (s : State) : (setOvr s).events = s.events := rfl
@[simp] theorem setOvr_returned (s : State) : (setOvr s).returned = s.returned := rfl
@[simp] theorem setOvr_wait (s : State) : (setOvr s).wait = s.wait := rfl
@[simp] theorem setOvr_latencyPlan (s : State) : (setOvr s).latencyPlan = s.latencyPlan := rfl
@[simp] theorem setOvr_accepted (s : State) : (setOvr s).accepted = s.accepted := rfl
@[simp] theorem setOvr_draws (s : State) : (setOvr s).draws = s.draws := rfl

/-! ## clearSticky -/

@[simp] theorem clearSticky_ctrl (v : Word) (s : State) : (clearSticky v s).ctrl = s.ctrl := rfl
@[simp] theorem clearSticky_cmd (v : Word) (s : State) : (clearSticky v s).cmd = s.cmd := rfl
@[simp] theorem clearSticky_key (v : Word) (s : State) : (clearSticky v s).key = s.key := rfl
@[simp] theorem clearSticky_state (v : Word) (s : State) : (clearSticky v s).state = s.state := rfl
@[simp] theorem clearSticky_dstate (v : Word) (s : State) : (clearSticky v s).dstate = s.dstate := rfl
@[simp] theorem clearSticky_opa (v : Word) (s : State) : (clearSticky v s).opa = s.opa := rfl
@[simp] theorem clearSticky_res (v : Word) (s : State) : (clearSticky v s).res = s.res := rfl
@[simp] theorem clearSticky_w (v : Word) (s : State) : (clearSticky v s).w = s.w := rfl
@[simp] theorem clearSticky_dk (v : Word) (s : State) : (clearSticky v s).dk = s.dk := rfl
@[simp] theorem clearSticky_akv (v : Word) (s : State) : (clearSticky v s).akv = s.akv := rfl
@[simp] theorem clearSticky_nr (v : Word) (s : State) : (clearSticky v s).nr = s.nr := rfl
@[simp] theorem clearSticky_dkv (v : Word) (s : State) : (clearSticky v s).dkv = s.dkv := rfl
@[simp] theorem clearSticky_dstratL (v : Word) (s : State) : (clearSticky v s).dstratL = s.dstratL := rfl
@[simp] theorem clearSticky_berr (v : Word) (s : State) : (clearSticky v s).berr = (s.berr && !v.getLsbD 3) := rfl
@[simp] theorem clearSticky_ovr (v : Word) (s : State) : (clearSticky v s).ovr = (s.ovr && !v.getLsbD 4) := rfl
@[simp] theorem clearSticky_err (v : Word) (s : State) : (clearSticky v s).err = s.err := rfl
@[simp] theorem clearSticky_busy (v : Word) (s : State) : (clearSticky v s).busy = s.busy := rfl
@[simp] theorem clearSticky_pending (v : Word) (s : State) : (clearSticky v s).pending = s.pending := rfl
@[simp] theorem clearSticky_ghostFault (v : Word) (s : State) : (clearSticky v s).ghostFault = s.ghostFault := rfl
@[simp] theorem clearSticky_events (v : Word) (s : State) : (clearSticky v s).events = s.events := rfl
@[simp] theorem clearSticky_returned (v : Word) (s : State) : (clearSticky v s).returned = s.returned := rfl
@[simp] theorem clearSticky_wait (v : Word) (s : State) : (clearSticky v s).wait = s.wait := rfl
@[simp] theorem clearSticky_latencyPlan (v : Word) (s : State) : (clearSticky v s).latencyPlan = s.latencyPlan := rfl
@[simp] theorem clearSticky_accepted (v : Word) (s : State) : (clearSticky v s).accepted = s.accepted := rfl
@[simp] theorem clearSticky_draws (v : Word) (s : State) : (clearSticky v s).draws = s.draws := rfl

/-! ## acceptCmd -/

@[simp] theorem acceptCmd_ctrl (c : Word) (s : State) : (acceptCmd c s).ctrl = s.ctrl := rfl
@[simp] theorem acceptCmd_cmd (c : Word) (s : State) : (acceptCmd c s).cmd = c := rfl
@[simp] theorem acceptCmd_key (c : Word) (s : State) : (acceptCmd c s).key = s.key := rfl
@[simp] theorem acceptCmd_state (c : Word) (s : State) : (acceptCmd c s).state = s.state := rfl
@[simp] theorem acceptCmd_dstate (c : Word) (s : State) : (acceptCmd c s).dstate = s.dstate := rfl
@[simp] theorem acceptCmd_opa (c : Word) (s : State) : (acceptCmd c s).opa = s.opa := rfl
@[simp] theorem acceptCmd_res (c : Word) (s : State) : (acceptCmd c s).res = s.res := rfl
@[simp] theorem acceptCmd_w (c : Word) (s : State) : (acceptCmd c s).w = s.w := rfl
@[simp] theorem acceptCmd_dk (c : Word) (s : State) : (acceptCmd c s).dk = s.dk := rfl
@[simp] theorem acceptCmd_akv (c : Word) (s : State) : (acceptCmd c s).akv = s.akv := rfl
@[simp] theorem acceptCmd_nr (c : Word) (s : State) : (acceptCmd c s).nr = s.nr := rfl
@[simp] theorem acceptCmd_dkv (c : Word) (s : State) : (acceptCmd c s).dkv = s.dkv := rfl
@[simp] theorem acceptCmd_dstratL (c : Word) (s : State) : (acceptCmd c s).dstratL = s.dstratL := rfl
@[simp] theorem acceptCmd_berr (c : Word) (s : State) : (acceptCmd c s).berr = s.berr := rfl
@[simp] theorem acceptCmd_ovr (c : Word) (s : State) : (acceptCmd c s).ovr = s.ovr := rfl
@[simp] theorem acceptCmd_err (c : Word) (s : State) : (acceptCmd c s).err = s.err := rfl
@[simp] theorem acceptCmd_busy (c : Word) (s : State) : (acceptCmd c s).busy = true := rfl
@[simp] theorem acceptCmd_pending (c : Word) (s : State) : (acceptCmd c s).pending = some c := rfl
@[simp] theorem acceptCmd_ghostFault (c : Word) (s : State) : (acceptCmd c s).ghostFault = s.ghostFault := rfl
@[simp] theorem acceptCmd_events (c : Word) (s : State) : (acceptCmd c s).events = s.events := rfl
@[simp] theorem acceptCmd_returned (c : Word) (s : State) : (acceptCmd c s).returned = s.returned := rfl
@[simp] theorem acceptCmd_wait (c : Word) (s : State) : (acceptCmd c s).wait = nextLatency s := rfl
@[simp] theorem acceptCmd_latencyPlan (c : Word) (s : State) : (acceptCmd c s).latencyPlan = s.latencyPlan.tail := rfl
@[simp] theorem acceptCmd_accepted (c : Word) (s : State) : (acceptCmd c s).accepted = s.accepted + 1 := rfl
@[simp] theorem acceptCmd_draws (c : Word) (s : State) : (acceptCmd c s).draws = s.draws := rfl

/-! ## finished -/

@[simp] theorem finished_ctrl (s : State) : (finished s).ctrl = s.ctrl := rfl
@[simp] theorem finished_cmd (s : State) : (finished s).cmd = s.cmd := rfl
@[simp] theorem finished_key (s : State) : (finished s).key = s.key := rfl
@[simp] theorem finished_state (s : State) : (finished s).state = s.state := rfl
@[simp] theorem finished_dstate (s : State) : (finished s).dstate = s.dstate := rfl
@[simp] theorem finished_opa (s : State) : (finished s).opa = s.opa := rfl
@[simp] theorem finished_res (s : State) : (finished s).res = s.res := rfl
@[simp] theorem finished_w (s : State) : (finished s).w = s.w := rfl
@[simp] theorem finished_dk (s : State) : (finished s).dk = s.dk := rfl
@[simp] theorem finished_akv (s : State) : (finished s).akv = s.akv := rfl
@[simp] theorem finished_nr (s : State) : (finished s).nr = s.nr := rfl
@[simp] theorem finished_dkv (s : State) : (finished s).dkv = s.dkv := rfl
@[simp] theorem finished_dstratL (s : State) : (finished s).dstratL = s.dstratL := rfl
@[simp] theorem finished_berr (s : State) : (finished s).berr = s.berr := rfl
@[simp] theorem finished_ovr (s : State) : (finished s).ovr = s.ovr := rfl
@[simp] theorem finished_err (s : State) : (finished s).err = 0 := rfl
@[simp] theorem finished_busy (s : State) : (finished s).busy = false := rfl
@[simp] theorem finished_pending (s : State) : (finished s).pending = none := rfl
@[simp] theorem finished_ghostFault (s : State) : (finished s).ghostFault = s.ghostFault := rfl
@[simp] theorem finished_events (s : State) : (finished s).events = s.events := rfl
@[simp] theorem finished_returned (s : State) : (finished s).returned = s.returned := rfl
@[simp] theorem finished_wait (s : State) : (finished s).wait = s.wait := rfl
@[simp] theorem finished_latencyPlan (s : State) : (finished s).latencyPlan = s.latencyPlan := rfl
@[simp] theorem finished_accepted (s : State) : (finished s).accepted = s.accepted := rfl
@[simp] theorem finished_draws (s : State) : (finished s).draws = s.draws := rfl

/-! ## failed -/

@[simp] theorem failed_ctrl (e : BitVec 4) (s : State) : (failed e s).ctrl = s.ctrl := rfl
@[simp] theorem failed_cmd (e : BitVec 4) (s : State) : (failed e s).cmd = s.cmd := rfl
@[simp] theorem failed_key (e : BitVec 4) (s : State) : (failed e s).key = s.key := rfl
@[simp] theorem failed_state (e : BitVec 4) (s : State) : (failed e s).state = s.state := rfl
@[simp] theorem failed_dstate (e : BitVec 4) (s : State) : (failed e s).dstate = s.dstate := rfl
@[simp] theorem failed_opa (e : BitVec 4) (s : State) : (failed e s).opa = s.opa := rfl
@[simp] theorem failed_res (e : BitVec 4) (s : State) : (failed e s).res = s.res := rfl
@[simp] theorem failed_w (e : BitVec 4) (s : State) : (failed e s).w = s.w := rfl
@[simp] theorem failed_dk (e : BitVec 4) (s : State) : (failed e s).dk = s.dk := rfl
@[simp] theorem failed_akv (e : BitVec 4) (s : State) : (failed e s).akv = s.akv := rfl
@[simp] theorem failed_nr (e : BitVec 4) (s : State) : (failed e s).nr = s.nr := rfl
@[simp] theorem failed_dkv (e : BitVec 4) (s : State) : (failed e s).dkv = s.dkv := rfl
@[simp] theorem failed_dstratL (e : BitVec 4) (s : State) : (failed e s).dstratL = s.dstratL := rfl
@[simp] theorem failed_berr (e : BitVec 4) (s : State) : (failed e s).berr = s.berr := rfl
@[simp] theorem failed_ovr (e : BitVec 4) (s : State) : (failed e s).ovr = s.ovr := rfl
@[simp] theorem failed_err (e : BitVec 4) (s : State) : (failed e s).err = e := rfl
@[simp] theorem failed_busy (e : BitVec 4) (s : State) : (failed e s).busy = false := rfl
@[simp] theorem failed_pending (e : BitVec 4) (s : State) : (failed e s).pending = none := rfl
@[simp] theorem failed_ghostFault (e : BitVec 4) (s : State) : (failed e s).ghostFault = true := rfl
@[simp] theorem failed_events (e : BitVec 4) (s : State) : (failed e s).events = s.events := rfl
@[simp] theorem failed_returned (e : BitVec 4) (s : State) : (failed e s).returned = s.returned := rfl
@[simp] theorem failed_wait (e : BitVec 4) (s : State) : (failed e s).wait = s.wait := rfl
@[simp] theorem failed_latencyPlan (e : BitVec 4) (s : State) : (failed e s).latencyPlan = s.latencyPlan := rfl
@[simp] theorem failed_accepted (e : BitVec 4) (s : State) : (failed e s).accepted = s.accepted := rfl
@[simp] theorem failed_draws (e : BitVec 4) (s : State) : (failed e s).draws = s.draws := rfl

end Sys2Proof.Machine
end

