-- ==== Sys2Proof/Laws/Bits.lean ====
section
/-! SUPPORT. Bytes and words, the AES state as a matrix, padding of a schedule memory, bit permutation, and the bits of
STATUS: one specification lemma for each operand form. -/

namespace Sys2Proof.Machine

/-- Byte r of a word packed from bytes is byte r. -/
@[simp] theorem byteOf_packWord (f : Fin 4 → Byte) (r : Fin 4) : byteOf (packWord f) r = f r := by
  apply BitVec.eq_of_getLsbD_eq
  intro i hi
  fin_cases r <;>
    simp only [byteOf, packWord, BitVec.getLsbD_extractLsb', BitVec.getLsbD_append] <;>
    simp [hi, show ¬ (24 + i < 8) by omega, show ¬ (16 + i < 8) by omega,
      show ¬ (8 + i < 8) by omega, show 24 + i - 8 = 16 + i by omega, show 16 + i - 8 = 8 + i by omega]

/-- A word packed from its own bytes is the word. -/
@[simp] theorem packWord_byteOf (w : Word) : packWord (byteOf w) = w := by
  apply BitVec.eq_of_getLsbD_eq
  intro i hi
  simp only [packWord, byteOf, BitVec.getLsbD_extractLsb', BitVec.getLsbD_append]
  by_cases h0 : i < 8
  · simp [h0]
  by_cases h1 : i < 16
  · simp [h0, show i - 8 < 8 by omega, show 8 + (i - 8) = i by omega]
  by_cases h2 : i < 24
  · simp [h0, show ¬ i - 8 < 8 by omega, show i - 8 - 8 < 8 by omega, show 16 + (i - 8 - 8) = i by omega]
  · simp [h0, show ¬ i - 8 < 8 by omega, show ¬ i - 8 - 8 < 8 by omega, show i - 8 - 8 - 8 < 8 by omega,
      show 24 + (i - 8 - 8 - 8) = i by omega]

/-- Two words with the same bytes are the same word. -/
theorem word_ext {v w : Word} (h : ∀ r, byteOf v r = byteOf w r) : v = w := by
  rw [← packWord_byteOf v, ← packWord_byteOf w, funext h]

/-! ## The AES state -/

@[simp] theorem columns_get (f : Fin 4 → Word) (c : Fin 4) : (columns f)[c.val] = f c := by
  fin_cases c <;> rfl

/-- Two AES states with the same columns are the same. -/
theorem state_ext {v w : Vector Word 4} (h : ∀ c : Fin 4, v[c] = w[c]) : v = w := by
  apply Vector.ext
  intro i hi
  exact h ⟨i, hi⟩

@[simp] theorem stateByte_fromMatrix (f : Fin 4 → Fin 4 → Byte) (r c : Fin 4) :
    stateByte (fromMatrix f) r c = f r c := by simp [stateByte, fromMatrix]

/-- Two AES states with the same matrix are the same. -/
theorem matrix_ext {v w : Vector Word 4} (h : ∀ r c, stateByte v r c = stateByte w r c) : v = w :=
  state_ext fun c => word_ext fun r => h r c

/-! ## Schedule memories -/

/-- Entry i of a padded memory: the list's, or the padding beyond it. -/
theorem padTo_get {α : Type} (n : Nat) (d : α) (l : List α) (i : Nat) (h : i < n) : (padTo n d l)[i] = l.getD i d := by
  simp only [padTo, Vector.getElem_mk, List.getElem_toArray, List.getElem_take]
  by_cases hi : i < l.length
  · simp [hi]
  · simp [List.getElem_append, hi]

/-- A schedule word that exists. -/
theorem scheduleWord_of_lt (w : Vector Word 60) (i : Nat) (h : i < 60) : scheduleWord w i = w[i] := by
  simp [scheduleWord, h]

/-! ## Permutation -/

theorem permute_fold_append {n : Nat} (x : BitVec n) (l₁ l₂ : List Nat) (a : Nat) :
    (l₁ ++ l₂).foldl (fun acc p => 2 * acc + (x.getMsbD (p - 1)).toNat) a
      = l₂.foldl (fun acc p => 2 * acc + (x.getMsbD (p - 1)).toNat)
          (l₁.foldl (fun acc p => 2 * acc + (x.getMsbD (p - 1)).toNat) a) := List.foldl_append

/-- Bit `k` from the end of the fold over a table is the bit its `k`-th entry from the end names. -/
theorem permute_fold_testBit {n : Nat} (x : BitVec n) (l : List Nat) (a k : Nat) (h : k < l.length) :
    (l.foldl (fun acc p => 2 * acc + (x.getMsbD (p - 1)).toNat) a).testBit k
      = x.getMsbD (l.getD (l.length - 1 - k) 0 - 1) := by
  induction l using List.reverseRecOn generalizing k with
  | nil => simp at h
  | append_singleton l p ih =>
    rw [permute_fold_append]
    simp only [List.foldl_cons, List.foldl_nil]
    cases k with
    | zero =>
      simp [Nat.testBit_zero]
      cases x.getMsbD (p - 1) <;> simp
    | succ k =>
      have hk : k < l.length := by simpa using h
      rw [Nat.testBit_succ]
      have : (2 * l.foldl (fun acc p => 2 * acc + (x.getMsbD (p - 1)).toNat) a + (x.getMsbD (p - 1)).toNat) / 2
          = l.foldl (fun acc p => 2 * acc + (x.getMsbD (p - 1)).toNat) a := by
        cases x.getMsbD (p - 1)
        · simp
        · simp; omega
      rw [this, ih k hk]
      congr 1
      rw [List.getD_append _ _ _ _ (by simp; omega)]
      congr 2
      simp
      omega

/-- `Permute`, position by position: position j of the result is position `T[j]` of the source (spec/00_scope.md R11;
positions here count from 0, table entries from 1). -/
theorem permute_getMsbD {n : Nat} (m : Nat) (T : List Nat) (x : BitVec n) (h : T.length = m) (j : Nat) (hj : j < m) :
    (permute m T x).getMsbD j = x.getMsbD (T.getD j 0 - 1) := by
  subst h
  rw [BitVec.getMsbD_eq_getLsbD, permute, BitVec.getLsbD_ofNat]
  rw [permute_fold_testBit x T 0 _ (by omega)]
  simp [hj, show T.length - 1 - j < T.length by omega, show T.length - 1 - (T.length - 1 - j) = j by omega]

/-! ## STATUS (spec/10_state.md R25) -/

theorem statusWord_bit (s : State) (i : Nat) (h : i < 18) :
    (statusWord s).getLsbD i =
      if i = 0 then s.busy else if i = 1 then s.akv else if i = 2 then s.dkv else if i = 3 then s.berr
      else if i = 4 then s.ovr else if i < 8 then false else if i < 12 then s.err.getLsbD (i - 8)
      else if i < 16 then s.nr.getLsbD (i - 12) else s.dstratL.getLsbD (i - 16) := by
  simp only [statusWord, BitVec.getLsbD_setWidth, BitVec.getLsbD_append]
  interval_cases i <;> simp

@[simp] theorem statusWord_busy (s : State) : (statusWord s)[0] = s.busy := by
  simpa using statusWord_bit s 0 (by omega)

end Sys2Proof.Machine
end

