-- ==== Sys2Proof/Laws/Decode.lean ====
section
/-! SUPPORT. The fields of an encoded word: `enc` drops no bit of any field. -/

namespace Sys2Proof

theorem opcField_enc (opc : BitVec 8) (rnd tbl : BitVec 4) (idx : BitVec 9) : opcField (enc opc rnd tbl idx) = opc := by
  apply BitVec.eq_of_getLsbD_eq
  intro i hi
  simp only [opcField, enc, BitVec.getLsbD_extractLsb', BitVec.getLsbD_or, BitVec.getLsbD_setWidth,
    BitVec.getLsbD_shiftLeft]
  simp [hi, show i < 32 by omega, show i < 12 by omega, show i < 16 by omega]

theorem rndField_enc (opc : BitVec 8) (rnd tbl : BitVec 4) (idx : BitVec 9) : rndField (enc opc rnd tbl idx) = rnd := by
  apply BitVec.eq_of_getLsbD_eq
  intro i hi
  simp only [rndField, enc, BitVec.getLsbD_extractLsb', BitVec.getLsbD_or, BitVec.getLsbD_setWidth,
    BitVec.getLsbD_shiftLeft]
  simp [hi, show 8 + i < 32 by omega, show i < 32 by omega, show 8 + i < 12 by omega, show 8 + i < 16 by omega]

theorem tblField_enc (opc : BitVec 8) (rnd tbl : BitVec 4) (idx : BitVec 9) : tblField (enc opc rnd tbl idx) = tbl := by
  apply BitVec.eq_of_getLsbD_eq
  intro i hi
  simp only [tblField, enc, BitVec.getLsbD_extractLsb', BitVec.getLsbD_or, BitVec.getLsbD_setWidth,
    BitVec.getLsbD_shiftLeft]
  have h := BitVec.getLsbD_of_ge opc (12 + i) (by omega)
  have h' := BitVec.getLsbD_of_ge rnd (12 + i - 8) (by omega)
  simp [hi, h, h', show 12 + i < 32 by omega, show i < 32 by omega, show 12 + i < 16 by omega]

theorem idxField_enc (opc : BitVec 8) (rnd tbl : BitVec 4) (idx : BitVec 9) : idxField (enc opc rnd tbl idx) = idx := by
  apply BitVec.eq_of_getLsbD_eq
  intro i hi
  simp only [idxField, enc, BitVec.getLsbD_extractLsb', BitVec.getLsbD_or, BitVec.getLsbD_setWidth,
    BitVec.getLsbD_shiftLeft]
  have h := BitVec.getLsbD_of_ge opc (16 + i) (by omega)
  have h' := BitVec.getLsbD_of_ge rnd (16 + i - 8) (by omega)
  have h'' := BitVec.getLsbD_of_ge tbl (16 + i - 12) (by omega)
  simp [hi, h, h', h'', show 16 + i < 32 by omega, show i < 32 by omega]

theorem rsvField_enc (opc : BitVec 8) (rnd tbl : BitVec 4) (idx : BitVec 9) : rsvField (enc opc rnd tbl idx) = 0 := by
  apply BitVec.eq_of_getLsbD_eq
  intro i hi
  simp only [rsvField, enc, BitVec.getLsbD_extractLsb', BitVec.getLsbD_or, BitVec.getLsbD_setWidth,
    BitVec.getLsbD_shiftLeft]
  have h := BitVec.getLsbD_of_ge opc (25 + i) (by omega)
  have h' := BitVec.getLsbD_of_ge rnd (25 + i - 8) (by omega)
  have h'' := BitVec.getLsbD_of_ge tbl (25 + i - 12) (by omega)
  have h3 := BitVec.getLsbD_of_ge idx (25 + i - 16) (by omega)
  simp [h, h', h'', h3]

end Sys2Proof
end

