-- ==== Sys2Proof/Laws/Ops.lean ====
section
/-! SUPPORT. What each shared operation can do: the two ends of a command, the register map, and the bus operations. -/

namespace Sys2Proof.Machine

/-! ## The two ends of a command -/

/-- A command that completes without error. -/
@[simp] theorem finish_eq (s : State) : finish s = .next (finished s) := by
  simp [finish, complete, finished, ErrCode.code]

/-- A command that raises an error. -/
theorem raise_eq {e : ErrCode} (h : e ≠ .none) (s : State) : raise e s = .next (failed e.code s) := by
  simp [raise, complete, failed, h]

@[simp] theorem raise_keyLength (s : State) : raise .keyLength s = .next (failed 1 s) := raise_eq (by decide) s
@[simp] theorem raise_unsupportedMode (s : State) : raise .unsupportedMode s = .next (failed 2 s) :=
  raise_eq (by decide) s
@[simp] theorem raise_illegalCmd (s : State) : raise .illegalCmd s = .next (failed 4 s) := raise_eq (by decide) s
@[simp] theorem raise_noSchedule (s : State) : raise .noSchedule s = .next (failed 5 s) := raise_eq (by decide) s
@[simp] theorem raise_range (s : State) : raise .range s = .next (failed 6 s) := raise_eq (by decide) s

/-- The block's part of a reset state is the reset state. -/
@[simp] theorem blockOf_hardReset (s : State) : blockOf (hardReset s) = State.reset := rfl

/-! ## The register map -/

/-- The map finds each register at its offset. -/
@[simp] theorem regAt_offset (r : Reg) : regAt r.offset.toNat = some r := by
  cases r with
  | id | ctrl | cmd | status | opa | res => decide
  | key i => fin_cases i <;> decide
  | state c => fin_cases c <;> decide
  | dstate h => fin_cases h <;> decide
  | w i => fin_cases i <;> decide
  | dkh k => fin_cases k <;> decide
  | dkl k => fin_cases k <;> decide

/-- Every register stands at a multiple of 4. -/
theorem offset_aligned (r : Reg) : r.offset.toNat % 4 = 0 := by
  cases r with
  | id | ctrl | cmd | status | opa | res => decide
  | key i => fin_cases i <;> decide
  | state c => fin_cases c <;> decide
  | dstate h => fin_cases h <;> decide
  | w i => fin_cases i <;> decide
  | dkh k => fin_cases k <;> decide
  | dkl k => fin_cases k <;> decide

@[simp] theorem readTarget_offset (r : Reg) : readTarget r.offset 32 = some r := by
  simp [readTarget, offset_aligned]

@[simp] theorem writeTarget_offset (r : Reg) : writeTarget r.offset 32 = if r.readOnly then none else some r := by
  simp [writeTarget]

/-- The register map, word by word. -/
theorem regAt_table : ∀ (i : Fin 64) (j : Fin 16), let off := 64 * i.val + 4 * j.val
    (regAt off = none ↔ (0x050 ≤ off ∧ off < 0x100) ∨ (0x1F0 ≤ off ∧ off < 0x200) ∨ 0x280 ≤ off)
      ∧ ((regAt off).elim false Reg.readOnly = true ↔ off = 0x000 ∨ off = 0x04C
        ∨ (0x100 ≤ off ∧ off < 0x1F0) ∨ (0x200 ≤ off ∧ off < 0x280)) := by
  decide +kernel

/-- What stands at an aligned offset: nothing exactly where the window is unmapped, and a read-only register exactly at the
read-only offsets. -/
theorem regAt_aligned {off : Nat} (hlt : off < 4096) (h4 : off % 4 = 0) :
    (regAt off = none ↔ unmappedOffset off) ∧ ((regAt off).elim false Reg.readOnly = true ↔ readOnlyOffset off) := by
  have h := regAt_table ⟨off / 64, by omega⟩ ⟨off % 64 / 4, by omega⟩
  have e : 64 * (off / 64) + 4 * (off % 64 / 4) = off := by omega
  simp only [e] at h
  exact h

/-- A read reaches no register exactly when its access is bad. -/
theorem readTarget_none_iff (off : BitVec 12) (width : Nat) :
    readTarget off width = none ↔ badAccess off.toNat width := by
  unfold readTarget badAccess
  split
  · rename_i h
    rw [(regAt_aligned off.isLt h.2).1]
    simp [h.1, h.2]
  · rename_i h; simp only [true_iff]; omega

/-- A write reaches no register exactly when its access is bad or the register is read-only. -/
theorem writeTarget_none_iff (off : BitVec 12) (width : Nat) :
    writeTarget off width = none ↔ badAccess off.toNat width ∨ readOnlyOffset off.toNat := by
  have hr := readTarget_none_iff off width
  unfold writeTarget
  split
  · rename_i r h
    have hb : ¬ badAccess off.toNat width := by rw [← hr, h]; simp
    have ha : off.toNat % 4 = 0 ∧ regAt off.toNat = some r := by
      unfold readTarget at h
      split at h
      · exact ⟨by omega, h⟩
      · cases h
    have := (regAt_aligned off.isLt ha.1).2
    rw [ha.2] at this
    simp only [Option.elim_some] at this
    simp [hb, ← this]
  · rename_i h
    simp [hr.1 h]

/-- Each register stands at its own offset, word by word. -/
theorem regAt_offset_table : ∀ (i : Fin 64) (j : Fin 16),
    (regAt (64 * i.val + 4 * j.val)).elim true
      (fun r => r.offset.toNat == 64 * i.val + 4 * j.val) = true := by
  decide +kernel

/-- The register an access reaches is the one at its offset, and its width is 32. -/
theorem eq_offset_of_readTarget {off : BitVec 12} {width : Nat} {r : Reg} (h : readTarget off width = some r) :
    off = r.offset ∧ width = 32 := by
  unfold readTarget at h
  split at h
  · rename_i hw
    have hlt := off.isLt
    have ht := regAt_offset_table ⟨off.toNat / 64, by omega⟩ ⟨off.toNat % 64 / 4, by omega⟩
    have e : 64 * (off.toNat / 64) + 4 * (off.toNat % 64 / 4) = off.toNat := by omega
    simp only [e, h, Option.elim_some, beq_iff_eq] at ht
    exact ⟨BitVec.eq_of_toNat_eq ht.symm, hw.1⟩
  · cases h

/-- The same of a write, whose register is none that is read-only. -/
theorem eq_offset_of_writeTarget {off : BitVec 12} {width : Nat} {r : Reg} (h : writeTarget off width = some r) :
    off = r.offset ∧ width = 32 ∧ r.readOnly = false := by
  unfold writeTarget at h
  split at h
  · rename_i q hq
    split at h
    · cases h
    · rename_i hr
      cases h
      exact ⟨(eq_offset_of_readTarget hq).1, (eq_offset_of_readTarget hq).2, by simpa using hr⟩
  · cases h

/-! ## The bus operations -/

/-- A legal read while idle returns the register and changes nothing. -/
theorem hostRead_idle {s : State} (h : s.busy = false) (r : Reg) : hostRead r.offset 32 s = (readReg r s, s) := by
  simp [hostRead, h]

/-- A legal write while idle stores to its register. -/
theorem hostWrite_idle {s : State} (h : s.busy = false) {r : Reg} (hr : r.readOnly = false) (v : Word) :
    hostWrite r.offset 32 v s = writeReg r v s := by
  simp [hostWrite, h, hr]

/-- Everything a read can do to the state: nothing, record a bus error, or take a draw. -/
theorem hostRead_state (off : BitVec 12) (width : Nat) (s : State) :
    (hostRead off width s).2 = s ∨ (hostRead off width s).2 = setBerr s
      ∨ (hostRead off width s).2 = { s with draws := s.draws + 1 } := by
  unfold hostRead
  split
  · exact .inr (.inl rfl)
  · split
    · exact .inr (.inr rfl)
    · exact .inl rfl

/-- Everything a write can do: set BERR, set OVR, set both, or, while idle, store to a register that may be written. -/
theorem hostWrite_cases (off : BitVec 12) (width : Nat) (v : Word) (s : State) :
    (s.busy = false ∧ hostWrite off width v s = setBerr s) ∨ (s.busy = true ∧ hostWrite off width v s = setOvr s)
      ∨ (s.busy = true ∧ hostWrite off width v s = setOvr (setBerr s))
      ∨ (s.busy = false ∧ ∃ r : Reg, r.readOnly = false ∧ writeTarget off width = some r
          ∧ hostWrite off width v s = writeReg r v s) := by
  cases hb : s.busy with
  | true =>
    cases ht : writeTarget off width with
    | none => simp [hostWrite, hb, ht]
    | some r => simp [hostWrite, hb, ht]
  | false =>
    cases ht : writeTarget off width with
    | none => simp [hostWrite, hb, ht]
    | some r =>
      refine .inr (.inr (.inr ⟨rfl, r, (eq_offset_of_writeTarget ht).2.2, rfl, ?_⟩))
      simp [hostWrite, hb, ht]

end Sys2Proof.Machine
end

