-- ==== Sys2Proof/Laws/Exec.lean ====
section
/-! SUPPORT. One specification lemma for each command's meaning, and what any command can do. -/

namespace Sys2Proof.Machine

/-! ## The AES expansion -/

/-- The three key lengths. -/
theorem aesParams_cases {lk nk nr : Nat} (h : aesParams lk = some (nk, nr)) :
    (nk = 4 ∧ nr = 10) ∨ (nk = 6 ∧ nr = 12) ∨ (nk = 8 ∧ nr = 14) := by
  unfold aesParams at h
  split at h <;> simp_all

/-- Each turn of the recurrence adds one word. -/
theorem expandWords_length (nk n : Nat) (ws : List Word) : (expandWords nk n ws).length = ws.length + n := by
  induction n generalizing ws with
  | zero => rfl
  | succ n ih => simp [expandWords, ih]; omega

/-- The schedule has 4(Nr+1) words. -/
theorem keyExpansion_length {lk nk nr : Nat} (h : aesParams lk = some (nk, nr)) (s : State) :
    (keyExpansion nk nr (aesKeyWords s nk)).length = 4 * (nr + 1) := by
  obtain ⟨rfl, rfl⟩ | ⟨rfl, rfl⟩ | ⟨rfl, rfl⟩ := aesParams_cases h <;>
    simp [keyExpansion, expandWords_length, aesKeyWords]

/-! ## The commands -/

theorem exec_nop (s : State) : exec .nop s = .next (finished s) := finish_eq s

theorem exec_srst (s : State) : exec .srst s = .next (finished (hardReset s)) := finish_eq _

theorem exec_aesKexp_ok {s : State} {nk nr : Nat} (h : aesParams (klen s).toNat = some (nk, nr)) :
    exec .aesKexp s = .next (finished { s with
      w := padTo 60 0 (keyExpansion nk nr (aesKeyWords s nk)), nr := BitVec.ofNat 4 nr, akv := true }) := by
  simp [exec, execAesKexp, h]

theorem exec_aesKexp_bad {s : State} (h : aesParams (klen s).toNat = none) :
    exec .aesKexp s = .next (failed 1 s) := by
  simp [exec, execAesKexp, h]

theorem exec_aesSubbytes (s : State) :
    exec .aesSubbytes s = .next (finished { s with state := subBytes s.state }) := finish_eq _

theorem exec_aesInvsubbytes (s : State) :
    exec .aesInvsubbytes s = .next (finished { s with state := invSubBytes s.state }) := finish_eq _

theorem exec_aesShiftrows (s : State) :
    exec .aesShiftrows s = .next (finished { s with state := shiftRows s.state }) := finish_eq _

theorem exec_aesInvshiftrows (s : State) :
    exec .aesInvshiftrows s = .next (finished { s with state := invShiftRows s.state }) := finish_eq _

theorem exec_aesMixcolumns (s : State) :
    exec .aesMixcolumns s = .next (finished { s with state := mixColumns s.state }) := finish_eq _

theorem exec_aesInvmixcolumns (s : State) :
    exec .aesInvmixcolumns s = .next (finished { s with state := invMixColumns s.state }) := finish_eq _

theorem exec_aesAddroundkey_ok {s : State} {rnd : BitVec 4} (ha : s.akv = true) (hr : rnd.toNat ≤ s.nr.toNat) :
    exec (.aesAddroundkey rnd) s = .next (finished { s with state := addRoundKey s.w rnd.toNat s.state }) := by
  simp [exec, execAesAddroundkey, ha, Nat.not_lt.mpr hr]

theorem exec_aesAddroundkey_range {s : State} {rnd : BitVec 4} (ha : s.akv = true) (hr : s.nr.toNat < rnd.toNat) :
    exec (.aesAddroundkey rnd) s = .next (failed 6 s) := by
  simp [exec, execAesAddroundkey, ha, hr]

theorem exec_aesAddroundkey_noSchedule {s : State} (rnd : BitVec 4) (ha : s.akv = false) :
    exec (.aesAddroundkey rnd) s = .next (failed 5 s) := by
  simp [exec, execAesAddroundkey, ha]

theorem exec_aesEnc (s : State) : exec .aesEnc s =
    if s.akv then .next (finished { s with state := aesCipher s.w s.nr.toNat s.state }) else .next (failed 5 s) := by
  simp [exec, execAesEnc]

theorem exec_aesDec (s : State) : exec .aesDec s =
    if s.akv then .next (finished { s with state := aesInvCipher s.w s.nr.toNat s.state }) else .next (failed 5 s) := by
  simp [exec, execAesDec]

theorem exec_aesRotword (s : State) : exec .aesRotword s = .next (finished { s with res := rotWord s.opa }) :=
  finish_eq _

theorem exec_aesSubword (s : State) : exec .aesSubword s = .next (finished { s with res := subWord s.opa }) :=
  finish_eq _

theorem exec_gfXtime (s : State) :
    exec .gfXtime s = .next (finished { s with res := (xtime (opaA s)).setWidth 32 }) := finish_eq _

theorem exec_gfMul (s : State) :
    exec .gfMul s = .next (finished { s with res := (mul (opaA s) (opaB s)).setWidth 32 }) := finish_eq _

theorem exec_romRead_ok {s : State} {tbl : BitVec 4} {idx : BitVec 9} {n : Nat} (h : romSize tbl = some n)
    (hi : idx.toNat < n) :
    exec (.romRead tbl idx) s = .next (finished { s with res := BitVec.ofNat 32 (romEntry tbl idx.toNat) }) := by
  simp [exec, execRomRead, h, Nat.not_le.mpr hi]

theorem exec_romRead_range {s : State} {tbl : BitVec 4} {idx : BitVec 9} {n : Nat} (h : romSize tbl = some n)
    (hi : n ≤ idx.toNat) : exec (.romRead tbl idx) s = .next (failed 6 s) := by
  simp [exec, execRomRead, h, hi]

theorem exec_romRead_illegal {s : State} {tbl : BitVec 4} {idx : BitVec 9} (h : romSize tbl = none) :
    exec (.romRead tbl idx) s = .next (failed 4 s) := by
  simp [exec, execRomRead, h]

theorem exec_desKexp (s : State) : exec .desKexp s =
    if klen s ≠ 8 then .next (failed 1 s)
    else if dstrat s = 3 then .next (failed 2 s)
    else .next (finished { s with
      dk := padTo 16 0 (desKeySchedule (desKey s)), dstratL := dstrat s, dkv := true }) := by
  simp [exec, execDesKexp]

theorem exec_desIp (s : State) :
    exec .desIp s = .next (finished { s with dstate := splitData (initialPerm (desData s)) }) := finish_eq _

theorem exec_desFp (s : State) :
    exec .desFp s = .next (finished { s with dstate := splitData (finalPerm (desData s)) }) := finish_eq _

theorem exec_desF (k : BitVec 4) (s : State) : exec (.desF k) s =
    if s.dkv then .next (finished { s with res := feistel s.dstratL s.dstate[1] (subkey s k) })
    else .next (failed 5 s) := by
  simp [exec, execDesF]

theorem exec_desRound (k : BitVec 4) (s : State) : exec (.desRound k) s =
    if s.dkv then
      .next (finished { s with
        dstate := halves s.dstate[1] (s.dstate[0] ^^^ feistel s.dstratL s.dstate[1] (subkey s k)) })
    else .next (failed 5 s) := by
  simp [exec, execDesRound, desRound]

theorem exec_desSwap (s : State) :
    exec .desSwap s = .next (finished { s with dstate := halves s.dstate[1] s.dstate[0] }) := finish_eq _

theorem exec_desEnc (s : State) : exec .desEnc s =
    if s.dkv then .next (finished { s with dstate := splitData (desCipher s.dstratL s.dk (desData s)) })
    else .next (failed 5 s) := by
  simp [exec, execDesEnc]

theorem exec_desDec (s : State) : exec .desDec s =
    if s.dkv then .next (finished { s with dstate := splitData (desInvCipher s.dstratL s.dk (desData s)) })
    else .next (failed 5 s) := by
  simp [exec, execDesDec]

/-- The writes a command may make: SRST resets, and every other command writes at most its own destination
(spec/10_state.md R39). -/
inductive CommandWrites (s : State) : State → Prop
  | nothing : CommandWrites s s
  | reset : CommandWrites s (hardReset s)
  | res (v : Word) : CommandWrites s { s with res := v }
  | state (v : Vector Word 4) : CommandWrites s { s with state := v }
  | dstate (v : Vector Word 2) : CommandWrites s { s with dstate := v }
  | aesSchedule (nk nr : Nat) (h : aesParams (klen s).toNat = some (nk, nr)) : CommandWrites s { s with
      w := padTo 60 0 (keyExpansion nk nr (aesKeyWords s nk)), nr := BitVec.ofNat 4 nr, akv := true }
  | desSchedule (h : dstrat s ≠ 3) : CommandWrites s { s with
      dk := padTo 16 0 (desKeySchedule (desKey s)), dstratL := dstrat s, dkv := true }

/-- Everything a command can do: it fails with one of the codes 1, 2, 4, 5, 6 and writes nothing, or it completes with its
writes. -/
theorem exec_cases (i : Instr) (s : State) :
    (∃ e : BitVec 4, (e = 1 ∨ e = 2 ∨ e = 4 ∨ e = 5 ∨ e = 6) ∧ exec i s = .next (failed e s))
      ∨ ∃ u, CommandWrites s u ∧ exec i s = .next (finished u) := by
  cases i with
  | nop => exact .inr ⟨_, .nothing, exec_nop s⟩
  | srst => exact .inr ⟨_, .reset, exec_srst s⟩
  | aesKexp =>
    cases h : aesParams (klen s).toNat with
    | none => exact .inl ⟨1, by simp, exec_aesKexp_bad h⟩
    | some p => exact .inr ⟨_, .aesSchedule p.1 p.2 h, exec_aesKexp_ok h⟩
  | aesSubbytes => exact .inr ⟨_, .state _, exec_aesSubbytes s⟩
  | aesInvsubbytes => exact .inr ⟨_, .state _, exec_aesInvsubbytes s⟩
  | aesShiftrows => exact .inr ⟨_, .state _, exec_aesShiftrows s⟩
  | aesInvshiftrows => exact .inr ⟨_, .state _, exec_aesInvshiftrows s⟩
  | aesMixcolumns => exact .inr ⟨_, .state _, exec_aesMixcolumns s⟩
  | aesInvmixcolumns => exact .inr ⟨_, .state _, exec_aesInvmixcolumns s⟩
  | aesAddroundkey rnd =>
    by_cases ha : s.akv = true
    · rcases Nat.lt_or_ge s.nr.toNat rnd.toNat with hr | hr
      · exact .inl ⟨6, by simp, exec_aesAddroundkey_range ha hr⟩
      · exact .inr ⟨_, .state _, exec_aesAddroundkey_ok ha hr⟩
    · exact .inl ⟨5, by simp, exec_aesAddroundkey_noSchedule rnd (by simpa using ha)⟩
  | aesEnc =>
    rw [exec_aesEnc]
    split
    · exact .inr ⟨_, .state _, rfl⟩
    · exact .inl ⟨5, by simp, rfl⟩
  | aesDec =>
    rw [exec_aesDec]
    split
    · exact .inr ⟨_, .state _, rfl⟩
    · exact .inl ⟨5, by simp, rfl⟩
  | aesRotword => exact .inr ⟨_, .res _, exec_aesRotword s⟩
  | aesSubword => exact .inr ⟨_, .res _, exec_aesSubword s⟩
  | gfXtime => exact .inr ⟨_, .res _, exec_gfXtime s⟩
  | gfMul => exact .inr ⟨_, .res _, exec_gfMul s⟩
  | romRead tbl idx =>
    cases h : romSize tbl with
    | none => exact .inl ⟨4, by simp, exec_romRead_illegal h⟩
    | some n =>
      rcases Nat.lt_or_ge idx.toNat n with hi | hi
      · exact .inr ⟨_, .res _, exec_romRead_ok h hi⟩
      · exact .inl ⟨6, by simp, exec_romRead_range h hi⟩
  | desKexp =>
    rw [exec_desKexp]
    split
    · exact .inl ⟨1, by simp, rfl⟩
    · split
      · exact .inl ⟨2, by simp, rfl⟩
      · rename_i _ h
        exact .inr ⟨_, .desSchedule h, rfl⟩
  | desIp => exact .inr ⟨_, .dstate _, exec_desIp s⟩
  | desFp => exact .inr ⟨_, .dstate _, exec_desFp s⟩
  | desF rnd =>
    rw [exec_desF]
    split
    · exact .inr ⟨_, .res _, rfl⟩
    · exact .inl ⟨5, by simp, rfl⟩
  | desRound rnd =>
    rw [exec_desRound]
    split
    · exact .inr ⟨_, .dstate _, rfl⟩
    · exact .inl ⟨5, by simp, rfl⟩
  | desSwap => exact .inr ⟨_, .dstate _, exec_desSwap s⟩
  | desEnc =>
    rw [exec_desEnc]
    split
    · exact .inr ⟨_, .dstate _, rfl⟩
    · exact .inl ⟨5, by simp, rfl⟩
  | desDec =>
    rw [exec_desDec]
    split
    · exact .inr ⟨_, .dstate _, rfl⟩
    · exact .inl ⟨5, by simp, rfl⟩

end Sys2Proof.Machine
end

