-- ==== Sys2Proof/Laws/HostSide.lean ====
section
/-! SUPPORT. What the host's calls do to an idle block. -/

namespace Sys2Proof.Machine

/-- Storing to a register other than CMD leaves the block idle. -/
theorem writeReg_busy {r : Reg} (hc : r ≠ .cmd) (v : Word) (s : State) : (writeReg r v s).busy = s.busy := by
  cases r <;> first | rfl | exact absurd rfl hc

/-- Words for registers that may be written, CMD apart, are all stored. -/
theorem storeWords_idle (ws : List (Reg × Word)) (s : State) (hs : s.busy = false)
    (hw : ∀ p ∈ ws, p.1.readOnly = false ∧ p.1 ≠ .cmd) :
    storeWords ws s = ws.foldl (fun t p => writeReg p.1 p.2 t) s := by
  induction ws generalizing s with
  | nil => rfl
  | cons p rest ih =>
    have hp := hw p (by simp)
    have e := hostWrite_idle hs hp.1 p.2
    simpa only [storeWords, List.foldl_cons, e] using
      ih (writeReg p.1 p.2 s) ((writeReg_busy hp.2 p.2 s).trans hs) fun q hq => hw q (by simp [hq])

/-- A command run on an idle block is the engine's step on its word, accepted. -/
theorem runCommand_idle {s : State} (h : s.busy = false) (i : Instr) :
    runCommand i s = engineStep (encode i) (acceptCmd (encode i) s) := by
  simp only [runCommand, hostWrite_idle h (r := .cmd) rfl]
  rfl

end Sys2Proof.Machine
end

