-- ==== Sys2Proof/Laws/PerInstr.lean ====
section
/-! SUPPORT. A law of every command's encoding, constructor by constructor: the word carries the command's own opcode in
OPC and zero in RSV (spec/30_encoding.md R90, R92). -/

namespace Sys2Proof.Laws.EncodedFields

/-- OPC holds the opcode and RSV is zero. -/
def Statement (i : Instr) : Prop := opcField (encode i) = i.opcode ∧ rsvField (encode i) = 0

theorem nop : Statement .nop := ⟨opcField_enc _ _ _ _, rsvField_enc _ _ _ _⟩
theorem srst : Statement .srst := ⟨opcField_enc _ _ _ _, rsvField_enc _ _ _ _⟩
theorem aesKexp : Statement .aesKexp := ⟨opcField_enc _ _ _ _, rsvField_enc _ _ _ _⟩
theorem aesSubbytes : Statement .aesSubbytes := ⟨opcField_enc _ _ _ _, rsvField_enc _ _ _ _⟩
theorem aesInvsubbytes : Statement .aesInvsubbytes := ⟨opcField_enc _ _ _ _, rsvField_enc _ _ _ _⟩
theorem aesShiftrows : Statement .aesShiftrows := ⟨opcField_enc _ _ _ _, rsvField_enc _ _ _ _⟩
theorem aesInvshiftrows : Statement .aesInvshiftrows := ⟨opcField_enc _ _ _ _, rsvField_enc _ _ _ _⟩
theorem aesMixcolumns : Statement .aesMixcolumns := ⟨opcField_enc _ _ _ _, rsvField_enc _ _ _ _⟩
theorem aesInvmixcolumns : Statement .aesInvmixcolumns := ⟨opcField_enc _ _ _ _, rsvField_enc _ _ _ _⟩
theorem aesAddroundkey (rnd : BitVec 4) : Statement (.aesAddroundkey rnd) := ⟨opcField_enc _ _ _ _, rsvField_enc _ _ _ _⟩
theorem aesEnc : Statement .aesEnc := ⟨opcField_enc _ _ _ _, rsvField_enc _ _ _ _⟩
theorem aesDec : Statement .aesDec := ⟨opcField_enc _ _ _ _, rsvField_enc _ _ _ _⟩
theorem aesRotword : Statement .aesRotword := ⟨opcField_enc _ _ _ _, rsvField_enc _ _ _ _⟩
theorem aesSubword : Statement .aesSubword := ⟨opcField_enc _ _ _ _, rsvField_enc _ _ _ _⟩
theorem gfXtime : Statement .gfXtime := ⟨opcField_enc _ _ _ _, rsvField_enc _ _ _ _⟩
theorem gfMul : Statement .gfMul := ⟨opcField_enc _ _ _ _, rsvField_enc _ _ _ _⟩
theorem romRead (tbl : BitVec 4) (idx : BitVec 9) : Statement (.romRead tbl idx) := ⟨opcField_enc _ _ _ _, rsvField_enc _ _ _ _⟩
theorem desKexp : Statement .desKexp := ⟨opcField_enc _ _ _ _, rsvField_enc _ _ _ _⟩
theorem desIp : Statement .desIp := ⟨opcField_enc _ _ _ _, rsvField_enc _ _ _ _⟩
theorem desFp : Statement .desFp := ⟨opcField_enc _ _ _ _, rsvField_enc _ _ _ _⟩
theorem desF (rnd : BitVec 4) : Statement (.desF rnd) := ⟨opcField_enc _ _ _ _, rsvField_enc _ _ _ _⟩
theorem desRound (rnd : BitVec 4) : Statement (.desRound rnd) := ⟨opcField_enc _ _ _ _, rsvField_enc _ _ _ _⟩
theorem desSwap : Statement .desSwap := ⟨opcField_enc _ _ _ _, rsvField_enc _ _ _ _⟩
theorem desEnc : Statement .desEnc := ⟨opcField_enc _ _ _ _, rsvField_enc _ _ _ _⟩
theorem desDec : Statement .desDec := ⟨opcField_enc _ _ _ _, rsvField_enc _ _ _ _⟩

end Sys2Proof.Laws.EncodedFields
end

