-- ==== Sys2Proof/Laws/Step.lean ====
section
/-! SUPPORT. What a step can do. -/

namespace Sys2Proof.Machine

/-- Everything an engine step can do: it fails and writes nothing, or it completes with the command's writes. -/
theorem engineStep_cases (c : Word) (s : State) :
    (∃ e : BitVec 4, (e = 1 ∨ e = 2 ∨ e = 4 ∨ e = 5 ∨ e = 6) ∧ engineStep c s = .next (failed e s))
      ∨ ∃ u, CommandWrites s u ∧ engineStep c s = .next (finished u) := by
  unfold engineStep
  cases decode c with
  | ok i => exact exec_cases i s
  | error r => exact .inl ⟨4, by simp, raise_illegalCmd s⟩

/-- Everything a step can do: with a command pending at the engine's turn, its engine step; with one pending but not at its
turn, an outside event and one turn less to wait; with none pending, an outside event. -/
theorem step_cases (s : State) :
    (∃ c, s.pending = some c ∧ engineTurn s = true ∧ step s = engineStep c s)
      ∨ (∃ c, s.pending = some c ∧ engineTurn s = false ∧ step s = .next (outsideStep { s with wait := s.wait - 1 }))
      ∨ (s.pending = none ∧ step s = .next (outsideStep s)) := by
  cases hp : s.pending with
  | none => exact .inr (.inr ⟨rfl, by simp [step, hp]⟩)
  | some c =>
    cases ht : engineTurn s with
    | true => exact .inl ⟨c, rfl, rfl, by simp [step, hp, ht]⟩
    | false => exact .inr (.inl ⟨c, rfl, rfl, by simp [step, hp, ht]⟩)

/-- Whose step the next one is: the engine's, an outside event's, or, with nothing to do, nobody's. -/
theorem step_agents (s : State) :
    (∃ c, engineCommand s = some c ∧ step s = engineStep c s)
      ∨ (∃ e n, engineCommand s = none ∧ performedEvent s = some e
          ∧ step s = .next (perform e { s with events := s.events.tail, wait := n }))
      ∨ (engineCommand s = none ∧ performedEvent s = none ∧ step s = .next s) := by
  cases hp : s.pending with
  | none =>
    have he : engineCommand s = none := by simp [engineCommand, hp]
    cases hv : s.events with
    | nil => exact .inr (.inr ⟨he, by simp [performedEvent, he, hv], by simp [step, hp, outsideStep, hv]⟩)
    | cons e rest =>
      exact .inr (.inl ⟨e, s.wait, he, by simp [performedEvent, he, hv], by simp [step, hp, outsideStep, hv]⟩)
  | some c =>
    by_cases ht : s.wait = 0 ∨ s.events = []
    · exact .inl ⟨c, by simp [engineCommand, ht, hp], by simpa [step, hp, engineTurn] using fun h h' => by simp_all⟩
    · have he : engineCommand s = none := by simp [engineCommand, ht]
      cases hv : s.events with
      | nil => simp [hv] at ht
      | cons e rest =>
        refine .inr (.inl ⟨e, s.wait - 1, he, by simp [performedEvent, he, hv], ?_⟩)
        have hw : s.wait ≠ 0 := fun h => ht (.inl h)
        simp [step, hp, engineTurn, hw, hv, outsideStep]

/-- Everything an outside event can do. -/
theorem perform_cases (e : Event) (s : State) :
    (∃ off width, perform e s = { (hostRead off width s).2 with returned := (hostRead off width s).1 :: s.returned })
      ∨ (∃ off width v, e = .write off width v ∧ perform e s = hostWrite off width v s)
      ∨ (∃ off width, s.busy = true ∧ perform e s =
          { (hostRead off width s).2 with
            returned := (hostRead off width s).1 :: s.returned
            events := .poll :: (hostRead off width s).2.events })
      ∨ (e = .reset ∧ perform e s = hardReset s) := by
  cases e with
  | read off width => exact .inl ⟨off, width, rfl⟩
  | write off width v => exact .inr (.inl ⟨off, width, v, rfl, rfl⟩)
  | poll =>
    cases hb : s.busy with
    | true => exact .inr (.inr (.inl ⟨Reg.offset .status, 32, rfl, by simp [perform, recordRead, hb]⟩))
    | false => exact .inl ⟨Reg.offset .status, 32, by simp [perform, recordRead, hb]⟩
  | reset => exact .inr (.inr (.inr ⟨rfl, rfl⟩))

end Sys2Proof.Machine
end

