-- ==== Sys2Proof/Tests/Slice0.lean ====
section
/-! SUPPORT. The model's own tests: ill-formed terms, decoding of words written out from spec/30_encoding.md, and single
steps whose results are taken from spec/95_test_vectors.md (the vector is named at each test), and for every statement of
Certificates/Slice0/Obligations.lean that has hypotheses a state and operands that meet them. -/

set_option Elab.async false

namespace Sys2Proof.Tests

open Sys2Proof Sys2Proof.Machine

/-! ## WellFormed: an ill-formed term for the check -/

theorem test_wf_refuses_rom_eleven : Instr.wf (.romRead 11 0) = false := by decide +kernel
theorem test_wf_refuses_rom_fifteen : Instr.wf (.romRead 15 0x1FF) = false := by decide +kernel
theorem test_wf_takes_rom_ten : Instr.wf (.romRead 10 0x1FF) = true := by decide +kernel

/-! ## Decode: RSV, IDX, TBL, RND, OPC from the left (R90), the opcode from R93 -/

theorem test_decode_control :
    decode 0b0000000_000000000_0000_0000_00000000 = .ok .nop
      ∧ decode 0b0000000_000000000_0000_0000_00000001 = .ok .srst := by decide +kernel

theorem test_decode_aes_key :
    decode 0b0000000_000000000_0000_0000_00010000 = .ok .aesKexp
      ∧ decode 0b0000000_000000000_0000_0000_00011010 = .ok .aesRotword
      ∧ decode 0b0000000_000000000_0000_0000_00011011 = .ok .aesSubword := by decide +kernel

theorem test_decode_aes_round :
    decode 0b0000000_000000000_0000_0000_00010001 = .ok .aesSubbytes
      ∧ decode 0b0000000_000000000_0000_0000_00010010 = .ok .aesInvsubbytes
      ∧ decode 0b0000000_000000000_0000_0000_00010011 = .ok .aesShiftrows
      ∧ decode 0b0000000_000000000_0000_0000_00010100 = .ok .aesInvshiftrows
      ∧ decode 0b0000000_000000000_0000_0000_00010101 = .ok .aesMixcolumns
      ∧ decode 0b0000000_000000000_0000_0000_00010110 = .ok .aesInvmixcolumns
      ∧ decode 0b0000000_000000000_0000_1010_00010111 = .ok (.aesAddroundkey 10) := by decide +kernel

theorem test_decode_block :
    decode 0b0000000_000000000_0000_0000_00011000 = .ok .aesEnc
      ∧ decode 0b0000000_000000000_0000_0000_00011001 = .ok .aesDec
      ∧ decode 0b0000000_000000000_0000_0000_01000110 = .ok .desEnc
      ∧ decode 0b0000000_000000000_0000_0000_01000111 = .ok .desDec := by decide +kernel

theorem test_decode_gf :
    decode 0b0000000_000000000_0000_0000_00100000 = .ok .gfXtime
      ∧ decode 0b0000000_000000000_0000_0000_00100001 = .ok .gfMul := by decide +kernel

theorem test_decode_rom :
    decode 0b0000000_001010011_0000_0000_00110000 = .ok (.romRead 0 0x53)
      ∧ decode 0b0000000_111111111_1010_0000_00110000 = .ok (.romRead 10 0x1FF) := by decide +kernel

theorem test_decode_des :
    decode 0b0000000_000000000_0000_0000_01000000 = .ok .desKexp
      ∧ decode 0b0000000_000000000_0000_0000_01000001 = .ok .desIp
      ∧ decode 0b0000000_000000000_0000_0000_01000010 = .ok .desFp
      ∧ decode 0b0000000_000000000_0000_1111_01000011 = .ok (.desF 15)
      ∧ decode 0b0000000_000000000_0000_0011_01000100 = .ok (.desRound 3)
      ∧ decode 0b0000000_000000000_0000_0000_01000101 = .ok .desSwap := by decide +kernel

/-- V-ERR: the unassigned opcodes. -/
theorem test_decode_unassigned : [(0x02 : Word), 0x0F, 0x1C, 0x22, 0x31, 0x48, 0xFF].all
    (fun c => decode c = .error .unassignedOpcode) = true := by decide +kernel

/-- V-ERR, V-ROM-3, V-ARK: fields that must be zero. -/
theorem test_decode_unused_fields :
    [(0x00000100 : Word), 0x80000000, 0x02000030, 0x00000130, 0x01000044, 0x00010044, 0x00001017].all
      (fun c => decode c = .error .unusedFieldNotZero) = true := by decide +kernel

theorem test_decode_rom_illegal :
    decode 0x0000B030 = .error .romTableIllegal ∧ decode 0x0000F030 = .error .romTableIllegal := by decide +kernel

theorem test_encode_fields : encode (.romRead 10 0x1FF) = 0x01FFA030 ∧ encode (.desRound 15) = 0x00000F44 := by decide +kernel

theorem test_decodeTableWord : decodeTableWord 32 0x01FFA030 = some (.romRead 10 0x1FF)
    ∧ decodeTableWord 32 0x0000B030 = none := by decide +kernel

/-! ## Small states -/

/-- The state a step reaches with the command word `w` at the engine's turn. -/
def after (w : Word) (s : State) : State :=
  match step (s.withFetchWord 32 w.toNat) with
  | .next t => t
  | .fault _ => s
  | .refused _ => s

/-- OPA alone set. -/
def withOpa (v : Word) : State := { State.reset with opa := v }

/-- The AES-128 key of V-AES-1, expanded (V-KX-1). -/
def aesReady : State :=
  after 0x10 { State.reset with ctrl := 0x10, key := #v[0x00010203, 0x04050607, 0x08090A0B, 0x0C0D0E0F, 0, 0, 0, 0] }

/-- The DES key of V-DES-KS, expanded under the strategy in `ctrl`. -/
def desReady (ctrl : Word) : State :=
  after 0x40 { State.reset with ctrl := ctrl, key := #v[0x13345779, 0x9BBCDFF1, 0, 0, 0, 0, 0, 0] }

/-! ## One step per command -/

/-- V-CTL. -/
theorem test_nop_clears_err : statusWord (after 0x00 { State.reset with err := 4 }) = 0x00000000 := by decide +kernel
/-- V-CTL. -/
theorem test_nop_with_rnd_is_illegal : statusWord (after 0x00000100 State.reset) = 0x00000400 := by decide +kernel
/-- V-CTL. -/
theorem test_srst_resets :
    statusWord (after 0x01 aesReady) = 0 ∧ wordOf (after 0x01 aesReady).w 4 = 0 ∧ (after 0x01 aesReady).cmd = 0 := by
  decide +kernel
/-- V-CTL. -/
theorem test_srst_with_rnd_resets_nothing :
    statusWord (after 0x101 aesReady) = 0x0000A402 ∧ wordOf (after 0x101 aesReady).w 4 = 0xD6AA74FD := by
  decide +kernel

/-- V-GF-1. -/
theorem test_xtime_reduces : (after 0x20 (withOpa 0xAE)).res = 0x47 := by decide +kernel
/-- V-GF-1. -/
theorem test_xtime_ignores_high_bits : (after 0x20 (withOpa 0xFFFFFF53)).res = 0xA6 := by decide +kernel
/-- V-GF-2. -/
theorem test_gf_mul_example : (after 0x21 (withOpa 0x00008357)).res = 0xC1 := by decide +kernel
/-- V-GF-2. -/
theorem test_gf_mul_identity : (after 0x21 (withOpa 0x0000A501)).res = 0xA5 := by decide +kernel

/-- V-ROM-1. -/
theorem test_rom_last_entries :
    [((0x00FF0030 : Word), (0x16 : Word)), (0x00FF1030, 0x7D), (0x000A2030, 0x36), (0x003F3030, 7),
      (0x003F4030, 25), (0x00375030, 4), (0x002F6030, 32), (0x002F7030, 1), (0x001F8030, 25), (0x000F9030, 1),
      (0x01FFA030, 11)].all (fun p => (after p.1 State.reset).res = p.2) = true := by decide +kernel
/-- V-ROM-1, V-ROM-3. -/
theorem test_rom_range :
    [(0x01000030 : Word), 0x01001030, 0x000B2030, 0x00403030, 0x00404030, 0x00385030, 0x00306030, 0x00307030,
      0x00208030, 0x00109030].all (fun c => statusWord (after c State.reset) = 0x00000600) = true := by decide +kernel

/-- V-KX-1. -/
theorem test_aes_kexp_128 :
    statusWord aesReady = 0x0000A002 ∧ wordOf aesReady.w 4 = 0xD6AA74FD ∧ wordOf aesReady.w 43 = 0x4D2B30C5
      ∧ wordOf aesReady.w 44 = 0 := by decide +kernel
/-- V-KX-4: the extra SubWord of a 256-bit key. -/
theorem test_aes_kexp_256 :
    let t := after 0x10 { State.reset with
      ctrl := 0x20
      key := #v[0x603DEB10, 0x15CA71BE, 0x2B73AEF0, 0x857D7781, 0x1F352C07, 0x3B6108D7, 0x2D9810A3, 0x0914DFF4] }
    statusWord t = 0x0000E002 ∧ wordOf t.w 12 = 0xA8B09C1A ∧ wordOf t.w 59 = 0x706C631E := by decide +kernel

/-- V-RW. -/
theorem test_rotword : (after 0x1A (withOpa 0x09CF4F3C)).res = 0xCF4F3C09 := by decide +kernel
/-- V-RW. -/
theorem test_subword : (after 0x1B (withOpa 0x7F8D292F)).res = 0xD25DA515 := by decide +kernel

/-- V-SB. -/
theorem test_subbytes :
    (after 0x11 { State.reset with state := #v[0x00102030, 0x40506070, 0x8090A0B0, 0xC0D0E0F0] }).state
      = #v[0x63CAB704, 0x0953D051, 0xCD60E0E7, 0xBA70E18C] := by decide +kernel
/-- V-SB. -/
theorem test_invsubbytes :
    (after 0x12 { State.reset with state := #v[0x63CAB704, 0x0953D051, 0xCD60E0E7, 0xBA70E18C] }).state
      = #v[0x00102030, 0x40506070, 0x8090A0B0, 0xC0D0E0F0] := by decide +kernel
/-- V-SR. -/
theorem test_shiftrows :
    (after 0x13 { State.reset with state := #v[0x00010203, 0x04050607, 0x08090A0B, 0x0C0D0E0F] }).state
      = #v[0x00050A0F, 0x04090E03, 0x080D0207, 0x0C01060B] := by decide +kernel
/-- V-SR. -/
theorem test_invshiftrows :
    (after 0x14 { State.reset with state := #v[0x00010203, 0x04050607, 0x08090A0B, 0x0C0D0E0F] }).state
      = #v[0x000D0A07, 0x04010E0B, 0x0805020F, 0x0C090603] := by decide +kernel
/-- V-MC. -/
theorem test_mixcolumns :
    (after 0x15 { State.reset with state := #v[0xDB135345, 0xF20A225C, 0x01010101, 0x2D26314C] }).state
      = #v[0x8E4DA1BC, 0x9FDC589D, 0x01010101, 0x4D7EBDF8] := by decide +kernel
/-- V-MC. -/
theorem test_invmixcolumns :
    (after 0x16 { State.reset with state := #v[0x8E4DA1BC, 0x9FDC589D, 0x01010101, 0x4D7EBDF8] }).state
      = #v[0xDB135345, 0xF20A225C, 0x01010101, 0x2D26314C] := by decide +kernel
/-- V-ARK. -/
theorem test_addroundkey_last :
    (after 0xA17 aesReady).state = #v[0x13111D7F, 0xE3944A17, 0xF307A78B, 0x4D2B30C5] := by decide +kernel
/-- V-ARK. -/
theorem test_addroundkey_range : statusWord (after 0xB17 aesReady) = 0x0000A602 := by decide +kernel

/-- V-AES-1. -/
theorem test_aes_enc :
    (after 0x18 { aesReady with state := #v[0x00112233, 0x44556677, 0x8899AABB, 0xCCDDEEFF] }).state
      = #v[0x69C4E0D8, 0x6A7B0430, 0xD8CDB780, 0x70B4C55A] := by decide +kernel
/-- V-AES-1. -/
theorem test_aes_dec :
    (after 0x19 { aesReady with state := #v[0x69C4E0D8, 0x6A7B0430, 0xD8CDB780, 0x70B4C55A] }).state
      = #v[0x00112233, 0x44556677, 0x8899AABB, 0xCCDDEEFF] := by decide +kernel

/-- V-DES-KS: the rotations are cumulative. -/
theorem test_des_kexp :
    statusWord (desReady 0x108) = 0x00010004 ∧ (desReady 0x008).dk[0] = 0x1B02EFFC7072
      ∧ (desReady 0x008).dk[2] = 0x55FC8A42CF99 ∧ (desReady 0x008).dk[15] = 0xCB3D8B0E17F5 := by decide +kernel
/-- V-DES-KX: KEY_LENGTH before UNSUPPORTED_MODE. -/
theorem test_des_kexp_errors :
    statusWord (desReady 0x310) = 0x00000100 ∧ statusWord (desReady 0x308) = 0x00000200 := by decide +kernel

/-- V-DES-IP. -/
theorem test_des_ip :
    (after 0x41 { State.reset with dstate := #v[0x01234567, 0x89ABCDEF] }).dstate = #v[0xCC00CCFF, 0xF0AAF0AA] := by
  decide +kernel
/-- V-DES-IP. -/
theorem test_des_fp :
    (after 0x42 { State.reset with dstate := #v[0x01234567, 0x89ABCDEF] }).dstate = #v[0xFF330FAA, 0x00330FAA] := by
  decide +kernel
/-- V-DES-F, the three strategies. -/
theorem test_des_f :
    (after 0x43 { desReady 0x008 with dstate := #v[0, 0xF0AAF0AA] }).res = 0x234AA9BB
      ∧ (after 0x43 { desReady 0x108 with dstate := #v[0, 0xF0AAF0AA] }).res = 0x6117BA86
      ∧ (after 0x43 { desReady 0x208 with dstate := #v[0, 0xF0AAF0AA] }).res = 0x1A004578 := by decide +kernel
/-- V-DES-F: the last subkey, and a word with IDX that is not zero. -/
theorem test_des_f_last :
    (after 0xF43 { desReady 0x008 with dstate := #v[0, 0xF0AAF0AA] }).res = 0xD1425B7C
      ∧ statusWord (after 0x00010043 (desReady 0x008)) = 0x00000404 := by decide +kernel
/-- V-DES-RND. -/
theorem test_des_round :
    (after 0x44 { desReady 0x008 with dstate := #v[0xCC00CCFF, 0xF0AAF0AA] }).dstate = #v[0xF0AAF0AA, 0xEF4A6544]
      ∧ (after 0xF44 { desReady 0x208 with dstate := #v[0x2B88B86F, 0x3017C9A9] }).dstate
        = #v[0x3017C9A9, 0xA188336B] := by decide +kernel
/-- V-DES-IP. -/
theorem test_des_swap :
    (after 0x45 { State.reset with dstate := #v[0x43423234, 0x0A4CD995] }).dstate = #v[0x0A4CD995, 0x43423234] := by
  decide +kernel
/-- V-DES-ENC, the three strategies. -/
theorem test_des_enc :
    (after 0x46 { desReady 0x008 with dstate := #v[0x01234567, 0x89ABCDEF] }).dstate = #v[0x85E81354, 0x0F0AB405]
      ∧ (after 0x46 { desReady 0x108 with dstate := #v[0x01234567, 0x89ABCDEF] }).dstate = #v[0x4C28F917, 0x4918C965]
      ∧ (after 0x46 { desReady 0x208 with dstate := #v[0x01234567, 0x89ABCDEF] }).dstate
        = #v[0x6F25201B, 0xA4C7095A] := by decide +kernel
/-- V-DES-ENC. -/
theorem test_des_dec :
    (after 0x47 { desReady 0x208 with dstate := #v[0x6F25201B, 0xA4C7095A] }).dstate = #v[0x01234567, 0x89ABCDEF] := by
  decide +kernel

/-! ## Errors -/

/-- V-ERR: NO_SCHEDULE from reset, before RANGE for AES_ADDROUNDKEY 15. -/
theorem test_no_schedule : [(0x18 : Word), 0x19, 0x17, 0x43, 0x44, 0x46, 0x47, 0xF17].all
    (fun c => statusWord (after c State.reset) = 0x00000500) = true := by decide +kernel
/-- V-KX-6: a KEXP that fails leaves the old schedule valid. -/
theorem test_failed_kexp_keeps_schedule :
    let t := after 0x10 { aesReady with ctrl := 20 }
    statusWord t = 0x0000A102 ∧ wordOf t.w 4 = 0xD6AA74FD := by decide +kernel

/-! ## The host window -/

/-- V-BUS: writes to read-only registers. -/
theorem test_read_only_writes : [(0x000 : BitVec 12), 0x04C, 0x100, 0x200].all
    (fun off => statusWord (hostWrite off 32 5 State.reset) = 0x00000008) = true := by decide +kernel
/-- V-BUS: reads of unmapped offsets. -/
theorem test_unmapped_reads : [(0x050 : BitVec 12), 0x0FC, 0x1F0, 0x280, 0xFFC].all (fun off =>
    (hostRead off 32 State.reset).1 = 0 && statusWord (hostRead off 32 State.reset).2 = 0x00000008) = true := by
  decide +kernel
/-- 20_memory.md R65: a narrow access and one at an offset that is no multiple of 4. -/
theorem test_bad_shapes :
    statusWord (hostRead 0x004 8 State.reset).2 = 0x00000008 ∧ statusWord (hostWrite 0x012 32 5 State.reset) = 0x00000008
      ∧ (hostWrite 0x010 16 5 State.reset).key = State.reset.key := by decide +kernel
/-- V-BUS: the write-1-to-clear bits. -/
theorem test_sticky_bits :
    statusWord (hostWrite 0x00C 32 0xFFFFFFE7 { State.reset with berr := true }) = 0x00000008
      ∧ statusWord (hostWrite 0x00C 32 0x00000008 { State.reset with berr := true }) = 0 := by decide +kernel
/-- V-BUS: the reserved bits of CTRL. -/
theorem test_ctrl_mask : (hostRead 0x004 32 (hostWrite 0x004 32 0xFFFFFFFF State.reset)).1 = 0x0000033F := by decide +kernel
/-- V-HAZ interleaving A: the write while busy is dropped. -/
theorem test_dropped_write :
    let s := { aesReady with busy := true, pending := some 0x18, cmd := 0x18 }
    statusWord s = 0x0000A003 ∧ statusWord (hostWrite 0x030 32 0xDEADBEEF s) = 0x0000A013
      ∧ (hostWrite 0x030 32 0xDEADBEEF s).state = s.state := by decide +kernel
/-- V-DES-KS: DKH[0] and DKL[0]. -/
theorem test_subkey_windows :
    (hostRead 0x200 32 (desReady 0x008)).1 = 0x00001B02 ∧ (hostRead 0x204 32 (desReady 0x008)).1 = 0xEFFC7072 := by
  decide +kernel

/-! ## The host's side -/

/-- 10_state.md R26: a key's last bytes stand at the top of their word; a byte past byte 31 has no register (log 20). -/
theorem test_key_words :
    keyWords (List.replicate 17 0xAA) = [(.key 0, 0xAAAAAAAA), (.key 1, 0xAAAAAAAA), (.key 2, 0xAAAAAAAA),
        (.key 3, 0xAAAAAAAA), (.key 4, 0xAA000000)]
      ∧ keyWords (List.replicate 33 0xAA) = keyWords (List.replicate 32 0xAA) := by decide +kernel

/-- 30_encoding.md R100 with the key of V-DES-KS and V-DES-KX: the words DES_SETKEY writes, and its check. -/
theorem test_des_setkey :
    desSetkeyWords #v[0x13, 0x34, 0x57, 0x79, 0x9B, 0xBC, 0xDF, 0xF1] 2
        = [(.key 0, 0x13345779), (.key 1, 0x9BBCDFF1), (.ctrl, 0x00000208)]
      ∧ (hostDesSetkey #v[0x13, 0x34, 0x57, 0x79, 0x9B, 0xBC, 0xDF, 0xF1] 2 State.reset).toOption.map statusWord
        = some 0x00020004
      ∧ statusErrShown { State.reset with returned := [0x00000200] } = some 2 := by decide +kernel

/-- V-KX-1 and V-KX-6: AES_SETKEY of 16 bytes succeeds and of 17 fails. -/
theorem test_aes_setkey :
    (hostAesSetkey [0x00, 0x01, 0x02, 0x03, 0x04, 0x05, 0x06, 0x07, 0x08, 0x09, 0x0A, 0x0B, 0x0C, 0x0D, 0x0E, 0x0F]
        State.reset).toOption.map (fun t => wordOf t.w 43) = some 0x4D2B30C5
      ∧ (hostAesSetkey (List.replicate 17 0) State.reset).toOption.isNone = true := by decide +kernel

/-- V-PAD-1. -/
theorem test_pad_lengths :
    (pad 16 (List.replicate 16 0)).length = 32 ∧ (pad 16 (List.replicate 31 0)).getLast? = some 0x01
      ∧ (pad 8 (List.replicate 9 0)).length = 16 ∧ (pad 8 []).getLast? = some 0x08 := by decide +kernel
/-- V-PAD-2. -/
theorem test_unpad_malformed :
    unpad [] = [] ∧ unpad [0x01] = [] ∧ unpad [0x01, 0x02, 0x00] = [0x01, 0x02, 0x00] ∧ unpad [0x01, 0x20] = []
      ∧ unpad [0x00, 0x11, 0x01, 0x02] = [0x00, 0x11] := by decide +kernel
/-- 48_host_padding_ecb.md R308. -/
theorem test_alignment_check :
    hostDecrypt .aes (List.replicate 15 0) aesReady = .error .blockAlignment := rfl

/-! ## Witnesses: states and operands that meet the hypotheses of each statement -/

/-- A state with the word `c` pending and the engine's turn `n` events away. -/
def pendingState (c : Word) (n : Nat) (events : List Event) : State :=
  { State.reset with cmd := c, pending := some c, busy := true, wait := n, events := events }

theorem pendingState_inv (c : Word) (n : Nat) (events : List Event) : BlockInv (pendingState c n events) where
  busy_pending := rfl
  pending_cmd := by rintro _ ⟨⟩; rfl
  ctrl_reserved := (by decide : State.reset.ctrl &&& 0xFFFFFCC0 = 0)
  aes_invalid := fun _ => ⟨rfl, (by decide : ∀ i : Fin 60, State.reset.w[i] = 0)⟩
  aes_valid := fun h => by cases h
  des_invalid := fun _ => ⟨rfl, (by decide : ∀ k : Fin 16, State.reset.dk[k] = 0)⟩
  des_valid := fun h => by cases h
  err_code := .inl rfl
  fault_recorded := fun _ => ⟨rfl, rfl, rfl⟩

theorem witness_StepKeepsTheInvariant :
    ∃ s t, BlockInv s ∧ step s = .next t ∧ s.pending = some 0x18 ∧ t.err = 5 :=
  ⟨pendingState 0x18 0 [], failed 5 (pendingState 0x18 0 []), pendingState_inv _ _ _, rfl, rfl, rfl⟩

theorem aesReady_inv : BlockInv aesReady where
  busy_pending := by decide +kernel
  pending_cmd := fun c h => by
    have : aesReady.pending = none := by decide +kernel
    rw [this] at h; cases h
  ctrl_reserved := by decide +kernel
  aes_invalid := by decide +kernel
  aes_valid := by decide +kernel
  des_invalid := by decide +kernel
  des_valid := by decide +kernel
  err_code := by decide +kernel
  fault_recorded := by decide +kernel

/-- Both schedules valid, and NOP pending. -/
def bothReady : State :=
  { aesReady with dk := (desReady 0x208).dk, dstratL := 2, dkv := true, pending := some 0, busy := true }

theorem bothReady_schedules : SchedulesAreExpansions bothReady where
  aes := fun _ => ⟨#v[0x00010203, 0x04050607, 0x08090A0B, 0x0C0D0E0F, 0, 0, 0, 0], 16, 4, 10, rfl,
    by decide +kernel, by decide +kernel⟩
  des := fun _ => ⟨0x133457799BBCDFF1, by decide +kernel⟩

theorem witness_StepKeepsSchedulesExpansions :
    ∃ s t, SchedulesAreExpansions s ∧ step s = .next t ∧ s.akv = true ∧ s.dkv = true :=
  ⟨bothReady, finished bothReady, bothReady_schedules, rfl, by decide +kernel, rfl⟩

theorem witness_MulObeysTheFieldLaws : (0x53 : Byte) ≠ 0 ∧ mul 0x53 0xCA = 0x01 := by decide +kernel

/-- The last index of each table, and the last S-box, row and column. -/
theorem witness_RomReadReturnsTheEntry :
    ((0xFF : Byte).setWidth 9).toNat = 255 ∧ (10 : BitVec 9).toNat < 11
      ∧ [(63, desIpTable), (63, desFpTable), (55, desPc1Table), (47, desPc2Table), (47, desETable), (31, desPTable),
          (15, desShifts)].all (fun p => (BitVec.ofNat 9 p.1).toNat + 1 = p.2.length) = true
      ∧ (BitVec.ofNat 9 (64 * 7 + 16 * 3 + 15)).toNat = 511 := by decide +kernel

theorem witness_AesTablesAreTheirConstructions :
    sbox 0 = 0x63 ∧ (0x53 : Byte) ≠ 0 ∧ sbox 0x53 = 0xED ∧ rcon 1 = 0x01 ∧ rcon 10 = 0x36 := by decide +kernel

/-- CTRL with the three AES key lengths. -/
theorem witness_AesKexpFollowsTheRecurrence :
    let kl := fun c : Word => (c.extractLsb' 0 6).toNat
    (kl 0x10, 4, 10) ∈ [(16, 4, 10), (24, 6, 12), (32, 8, 14)]
      ∧ (kl 0x318, 6, 12) ∈ [(16, 4, 10), (24, 6, 12), (32, 8, 14)]
      ∧ (kl 0x20, 8, 14) ∈ [(16, 4, 10), (24, 6, 12), (32, 8, 14)] := by decide

/-- CTRL with KLEN 15, 17, 31 and 33 for AES, 7 and 9 for DES, and 8 with DSTRAT 3. -/
theorem witness_KexpRaisesItsErrors :
    [(0x0F : Word), 0x11, 0x1F, 0x21, 0x07, 0x09].all (fun c =>
      let s := { State.reset with ctrl := c }
      klen s ≠ 16 && klen s ≠ 24 && klen s ≠ 32 && klen s ≠ 8) = true
      ∧ klen { State.reset with ctrl := 0x308 } = 8
      ∧ ({ State.reset with ctrl := 0x308 } : State).ctrl.extractLsb' 8 2 = 3 := by decide +kernel

/-- Rounds 0 and NR, and NR 15, where only the clause on rnd 15 is open. -/
theorem witness_AesAddroundkeyAddsTheRoundKey :
    aesReady.akv = true ∧ (0 : BitVec 4).toNat ≤ aesReady.nr.toNat ∧ (10 : BitVec 4).toNat ≤ aesReady.nr.toNat
      ∧ (15 : BitVec 4).toNat ≤ ({ aesReady with nr := 15 } : State).nr.toNat ∧ ¬ (15 : BitVec 4).toNat ≤ 14 := by
  decide +kernel

theorem witness_DesKexpRotatesCumulatively :
    [(0x008 : Word), 0x108, 0x208].all (fun c =>
      klen { State.reset with ctrl := c } = 8 && dstrat { State.reset with ctrl := c } ≠ 3) = true := by decide +kernel

/-- V-DES-KX: two keys that differ only in parity. -/
theorem witness_DesScheduleIgnoresParity :
    (∀ p : Fin 64, p.val % 8 ≠ 7 →
        (0x133457799BBCDFF1 : Block64).getMsbD p = (0x123456789BBCDEF0 : Block64).getMsbD p)
      ∧ (0x133457799BBCDFF1 : Block64) ≠ 0x123456789BBCDEF0 := by decide +kernel

/-- A DES schedule under each strategy, for DES_F, DES_ROUND, DES_SWAP and the drivers. -/
theorem witness_DesFFollowsTheStrategy :
    (desReady 0x008).dkv = true ∧ (desReady 0x008).dstratL = 0 ∧ (desReady 0x108).dkv = true
      ∧ (desReady 0x108).dstratL = 1 ∧ (desReady 0x208).dkv = true ∧ (desReady 0x208).dstratL = 2 := by decide +kernel

/-- And a state no run reaches, with the reserved strategy. -/
theorem witness_DesRoundSwapsAndMixes :
    ∃ s : State, s.dkv = true ∧ s.dstratL = 3 := ⟨{ State.reset with dkv := true, dstratL := 3 }, rfl, rfl⟩

theorem witness_DesSwapExchangesTheHalves : (desReady 0x008).dkv = true := by decide +kernel
theorem witness_DesBlockCommandsAreTheirRounds : (desReady 0x108).dkv = true := by decide +kernel
theorem witness_DesDecUndoesDesEnc : (desReady 0x208).dkv = true := by decide +kernel
theorem witness_AesEncIsItsRounds : aesReady.akv = true ∧ aesReady.nr = 10 := by decide +kernel
theorem witness_AesDecIsItsRounds : aesReady.akv = true ∧ aesReady.nr = 10 := by decide +kernel
theorem witness_AesDecUndoesAesEnc : aesReady.akv = true ∧ aesReady.nr = 10 := by decide +kernel

/-- Halves and keys that differ outside the bits the strategies use. -/
theorem witness_XorAndAndStrategiesUseFewBits :
    (∀ j : Fin 32, j.val < 21 ∨ j.val = 31 → (0x00000000 : Word).getMsbD j = (0x000007FE : Word).getMsbD j)
      ∧ (0x000000000000 : Subkey).extractLsb' 16 32 = (0x00000000FFFF : Subkey).extractLsb' 16 32 := by decide +kernel

theorem witness_NoScheduleIsRaised :
    [Instr.aesAddroundkey 15, .aesEnc, .aesDec].all aesScheduleCommand = true
      ∧ [Instr.desF 0, .desRound 15, .desEnc, .desDec].all desScheduleCommand = true
      ∧ State.reset.akv = false ∧ State.reset.dkv = false := by decide

/-- The round after NR, the index after the last, and a DES_F that completes. -/
theorem witness_RangeIsRaised :
    aesReady.akv = true ∧ aesReady.nr.toNat < (11 : BitVec 4).toNat
      ∧ ((2 : BitVec 4).toNat, 11) ∈ romCounts ∧ 11 ≤ (11 : BitVec 9).toNat
      ∧ exec (.desF 15) State.reset = .next (failed 5 State.reset) :=
  ⟨by decide +kernel, by decide +kernel, by decide, by decide, rfl⟩

/-- A word with RSV bit 31 set is the encoding of no command. -/
theorem witness_IllegalWordsCompleteWithIllegalCmd :
    (∀ i : Instr, i.wf = true → encode i ≠ 0x80000021) ∧ State.reset.busy = false := by
  refine ⟨fun i _ h => ?_, rfl⟩
  have hr : rsvField (encode i) = 0 := by cases i <;> exact rsvField_enc _ _ _ _
  rw [h] at hr
  exact absurd hr (by decide)

theorem witness_FailedCommandsWriteNothing :
    ∃ t, engineStep 0xF17 State.reset = .next t ∧ t.err ≠ 0 := ⟨failed 5 State.reset, rfl, by decide⟩

theorem witness_CommandsReportOnlyTheirCodes :
    ∃ t, exec .desKexp { State.reset with ctrl := 0x308 } = .next t ∧ t.err = 2 :=
  ⟨failed 2 { State.reset with ctrl := 0x308 }, rfl, rfl⟩

theorem witness_ErrorPriorityIsFixed :
    decode 0x118 = .error .unusedFieldNotZero
      ∧ klen { State.reset with ctrl := 0x310 } ≠ 8 ∧ dstrat { State.reset with ctrl := 0x310 } = 3
      ∧ State.reset.akv = false ∧ 11 ≤ (11 : BitVec 4).toNat := by decide +kernel

theorem witness_DecodeOfEncodeIsTheCommand : Instr.wf (.romRead 10 0x1FF) = true := by decide

/-- The engine's turn with nothing to wait for, and with no event to come; a word that decodes and one that does not. -/
theorem witness_StepRunsTheDecodedCommand :
    (pendingState 0x21 0 [.poll]).pending = some 0x21 ∧ (pendingState 0x21 0 [.poll]).wait = 0
      ∧ (pendingState 0x21 5 []).pending = some 0x21 ∧ (pendingState 0x21 5 []).events = []
      ∧ decode 0x21 = .ok .gfMul ∧ decode 0x118 = .error .unusedFieldNotZero := by decide

theorem witness_OutsideEventsComeInOrder :
    ({ State.reset with events := [.reset] } : State).pending = none
      ∧ (pendingState 0x18 1 [.write 0x030 32 0xDEADBEEF]).wait = 0 + 1
      ∧ State.reset.events = [] ∧ State.reset.pending = none
      ∧ (pendingState 0x18 1 [.poll]).busy = true ∧ State.reset.busy = false := by decide

theorem witness_PendingCommandsEnd :
    BlockInv (pendingState 0x18 3 [.poll, .poll]) ∧ (pendingState 0x18 3 [.poll, .poll]).pending.isSome = true :=
  ⟨pendingState_inv _ _ _, rfl⟩

/-- AES_KEXP and DES_KEXP pending with legal key lengths. -/
def aesKexpPending : State := { pendingState 0x10 0 [] with ctrl := 0x10 }
def desKexpPending : State := { pendingState 0x40 0 [] with ctrl := 0x08 }

/-- A step that writes the AES schedule, one that writes the DES schedule, and a reset. -/
theorem witness_OnlyKexpAndResetsWriteSchedules :
    (∃ t, step aesKexpPending = .next t ∧ t.akv ≠ aesKexpPending.akv)
      ∧ (∃ t, step desKexpPending = .next t ∧ t.dkv ≠ desKexpPending.dkv)
      ∧ ∃ s t, step s = .next t ∧ t.dstratL ≠ s.dstratL ∧ performedEvent s = some .reset := by
  have ha : step aesKexpPending = exec .aesKexp aesKexpPending := rfl
  have hd : step desKexpPending = exec .desKexp desKexpPending := rfl
  rw [ha, hd, exec_aesKexp_ok (nk := 4) (nr := 10) (by decide), exec_desKexp, if_neg (by decide), if_neg (by decide)]
  exact ⟨⟨_, rfl, by decide⟩, ⟨_, rfl, by decide⟩,
    ⟨{ State.reset with dstratL := 2, events := [.reset] }, _, rfl, by decide, rfl⟩⟩

/-- A failing engine step; a bus error; a write while busy; and, for each sticky bit, the write that clears it. -/
theorem witness_FlagsHaveTheirWriters :
    (∃ s t, step s = .next t ∧ t.err ≠ s.err)
      ∧ (∃ s t, step s = .next t ∧ s.berr = false ∧ t.berr = true ∧ performedEvent s = some (.read 0x050 32))
      ∧ (∃ s t, step s = .next t ∧ s.berr = false ∧ t.berr = true ∧ performedEvent s = some (.write 0x27C 32 1))
      ∧ (∃ s t, step s = .next t ∧ s.ovr = false ∧ t.ovr = true ∧ performedEvent s = some (.write 0x048 32 1))
      ∧ (∃ s t, step s = .next t ∧ s.berr = true ∧ t.berr = false ∧ performedEvent s = some (.write 0x00C 32 0x08))
      ∧ ∃ s t, step s = .next t ∧ s.ovr = true ∧ t.ovr = false ∧ performedEvent s = some (.write 0x00C 32 0x10) := by
  refine ⟨⟨pendingState 0x18 0 [], _, rfl, ?_⟩, ⟨{ State.reset with events := [.read 0x050 32] }, _, rfl, ?_, ?_, rfl⟩,
    ⟨{ State.reset with events := [.write 0x27C 32 1] }, _, rfl, ?_, ?_, rfl⟩,
    ⟨pendingState 0x18 1 [.write 0x048 32 1], _, rfl, ?_, ?_, rfl⟩,
    ⟨{ State.reset with berr := true, events := [.write 0x00C 32 0x08] }, _, rfl, ?_, ?_, rfl⟩,
    ⟨{ State.reset with ovr := true, events := [.write 0x00C 32 0x10] }, _, rfl, ?_, ?_, rfl⟩⟩ <;> decide

/-- With the engine's turn come, a reset that is next in line is not the event performed. -/
theorem test_reset_in_line_is_not_performed :
    performedEvent (pendingState 0 0 [.reset]) = none ∧ performedEvent (pendingState 0 1 [.reset]) = some .reset := by
  decide

theorem witness_KeyAndCtrlBearOnlyOnKexp :
    (Instr.aesSubword ≠ .aesKexp ∧ Instr.aesSubword ≠ .desKexp ∧ Instr.aesSubword ≠ .srst)
      ∧ ∃ t, exec .aesSubword State.reset = .next t :=
  ⟨by decide, _, exec_aesSubword _⟩

theorem witness_IdleReadsReturnTheRegisters : State.reset.busy = false := rfl
theorem witness_IdleWritesStoreTheirRegister : State.reset.busy = false := rfl
theorem witness_StatusReadsAndClears : (0x18 : Word).getLsbD 3 = true ∧ State.reset.busy = false := by decide
theorem witness_IdleCmdWriteIsAccepted : State.reset.busy = false := rfl

/-- The ends of every range of bad offsets, a narrow access, an offset that is no multiple of 4, and the ends of the
read-only ranges; and offsets on the good side of each end. -/
theorem witness_BusErrorsSetBerr :
    (∀ off ∈ [0x050, 0x0FC, 0x1F0, 0x1FC, 0x280, 0xFFC], badAccess off 32) ∧ badAccess 0x004 8 ∧ badAccess 0x006 32
      ∧ (∀ off ∈ [0x000, 0x04C, 0x100, 0x1EC, 0x200, 0x27C], readOnlyOffset off ∧ ¬ badAccess off 32)
      ∧ (∀ off ∈ [0x004, 0x00C, 0x010, 0x048], ¬ (badAccess off 32 ∨ readOnlyOffset off))
      ∧ State.reset.busy = false ∧ (pendingState 0 0 []).busy = true := by
  refine ⟨?_, ?_, ?_, ?_, ?_, rfl, rfl⟩ <;> simp [badAccess, unmappedOffset, readOnlyOffset]

theorem witness_BusyWritesAreDropped :
    (pendingState 0 0 []).busy = true ∧ ¬ (badAccess 0x008 32 ∨ readOnlyOffset 0x008)
      ∧ (badAccess 0x280 32 ∨ readOnlyOffset 0x280) ∧ (badAccess 0x27C 32 ∨ readOnlyOffset 0x27C) := by
  refine ⟨rfl, ?_, ?_, ?_⟩ <;> simp [badAccess, unmappedOffset, readOnlyOffset]

theorem witness_BusyReadsOfResultsAreDraws :
    (pendingState 0 0 []).busy = true
      ∧ [Reg.state 3, .dstate 1, .res, .w 59, .dkh 0, .dkl 15].all Reg.datapath = true := by decide

/-- The three lengths that succeed and one of 64 bytes or more, those beside them, and the last method. -/
theorem witness_SetkeyExpandsTheKeyOrReportsItsError :
    State.reset.busy = false
      ∧ [(16, 4, 10), (24, 6, 12), (32, 8, 14), (80, 4, 10)].all (fun (n, nk, nr) =>
          decide (((List.replicate n (0 : Byte)).length % 64, nk, nr) ∈ [(16, 4, 10), (24, 6, 12), (32, 8, 14)])) = true
      ∧ [0, 8, 15, 17, 31, 33, 63, 64].all (fun n => let l := (List.replicate n (0 : Byte)).length % 64
          l ≠ 16 && l ≠ 24 && l ≠ 32) = true
      ∧ (2 : BitVec 2) ≠ 3 := by decide +kernel

theorem witness_MessagesSurviveTheRoundTrip :
    (aesReady.busy = false ∧ aesReady.pending = none ∧ aesReady.akv = true)
      ∧ (desReady 0x108).busy = false ∧ (desReady 0x108).pending = none ∧ (desReady 0x108).dkv = true := by
  decide +kernel

end Sys2Proof.Tests
end

section
/-! The key schedules and their latches as one part of the state: what leaves them as they are, and how every step keeps a
valid schedule the expansion of one key (spec/10_state.md R33, R34, spec/42_aes_key_schedule.md R175). -/

namespace Sys2Proof.Machine

/-- The schedule memories with the latches that go with them (spec/10_state.md R31 to R34). -/
structure Schedules where
  w : Vector Word 60
  nr : BitVec 4
  akv : Bool
  dk : Vector Subkey 16
  dstratL : BitVec 2
  dkv : Bool

/-- The schedules a state holds. -/
def State.schedules (s : State) : Schedules where
  w := s.w
  nr := s.nr
  akv := s.akv
  dk := s.dk
  dstratL := s.dstratL
  dkv := s.dkv

/-! ## What leaves the schedules as they are -/

@[simp] theorem finished_schedules (s : State) : (finished s).schedules = s.schedules := rfl
@[simp] theorem failed_schedules (e : BitVec 4) (s : State) : (failed e s).schedules = s.schedules := rfl
@[simp] theorem setBerr_schedules (s : State) : (setBerr s).schedules = s.schedules := rfl
@[simp] theorem setOvr_schedules (s : State) : (setOvr s).schedules = s.schedules := rfl

/-- No register a host may write holds a schedule: W, DKH and DKL are read-only, and their arm stores nothing. -/
@[simp] theorem writeReg_schedules (r : Reg) (v : Word) (s : State) : (writeReg r v s).schedules = s.schedules := by
  cases r <;> rfl

@[simp] theorem hostWrite_schedules (off : BitVec 12) (width : Nat) (v : Word) (s : State) :
    (hostWrite off width v s).schedules = s.schedules := by
  obtain ⟨-, h⟩ | ⟨-, h⟩ | ⟨-, h⟩ | ⟨-, r, -, -, h⟩ := hostWrite_cases off width v s <;> simp [h]

@[simp] theorem hostRead_schedules (off : BitVec 12) (width : Nat) (s : State) :
    (hostRead off width s).2.schedules = s.schedules := by
  obtain h | h | h := hostRead_state off width s <;> rw [h] <;> rfl

/-- An outside event other than a reset leaves the schedules as they are. -/
theorem perform_schedules {e : Event} (he : e ≠ .reset) (s : State) : (perform e s).schedules = s.schedules := by
  obtain ⟨off, width, h⟩ | ⟨off, width, v, -, h⟩ | ⟨off, width, -, h⟩ | ⟨hr, -⟩ := perform_cases e s
  · rw [h]; exact hostRead_schedules off width s
  · rw [h]; exact hostWrite_schedules off width v s
  · rw [h]; exact hostRead_schedules off width s
  · exact absurd hr he

/-! ## A valid schedule is the expansion of one key -/

/-- Whether valid schedules are expansions depends on the schedules alone. -/
theorem SchedulesAreExpansions.of_schedules_eq {s t : State} (h : SchedulesAreExpansions s)
    (e : t.schedules = s.schedules) : SchedulesAreExpansions t := by
  simp only [State.schedules, Schedules.mk.injEq] at e
  obtain ⟨hw, hnr, hakv, hdk, -, hdkv⟩ := e
  constructor
  · rw [hakv, hnr, hw]; exact h.aes
  · rw [hdkv, hdk]; exact h.des

/-- While no schedule is valid there is nothing to say. -/
theorem schedulesAreExpansions_of_invalid {s : State} (ha : s.akv = false) (hd : s.dkv = false) :
    SchedulesAreExpansions s where
  aes h := by simp [ha] at h
  des h := by simp [hd] at h

theorem schedulesAreExpansions_hardReset (s : State) : SchedulesAreExpansions (hardReset s) :=
  schedulesAreExpansions_of_invalid rfl rfl

/-- Each KEXP writes the whole schedule of the key registers beside its valid bit, and leaves the other family's. -/
theorem CommandWrites.keeps_schedulesAreExpansions {s u : State} (hu : CommandWrites s u)
    (h : SchedulesAreExpansions s) : SchedulesAreExpansions u := by
  cases hu with
  | nothing => exact h
  | reset => exact schedulesAreExpansions_hardReset s
  | res v => exact h.of_schedules_eq rfl
  | state v => exact h.of_schedules_eq rfl
  | dstate v => exact h.of_schedules_eq rfl
  | aesSchedule nk nr hp => exact ⟨fun _ => ⟨s.key, (klen s).toNat, nk, nr, hp, rfl, rfl⟩, h.des⟩
  | desSchedule _ => exact ⟨h.aes, fun _ => ⟨desKey s, rfl⟩⟩

theorem engineStep_keeps_schedulesAreExpansions {c : Word} {s t : State} (h : SchedulesAreExpansions s)
    (ht : engineStep c s = .next t) : SchedulesAreExpansions t := by
  obtain ⟨e, -, he⟩ | ⟨u, hu, he⟩ := engineStep_cases c s
  · rw [he] at ht; cases ht
    exact h.of_schedules_eq (failed_schedules e s)
  · rw [he] at ht; cases ht
    exact (hu.keeps_schedulesAreExpansions h).of_schedules_eq (finished_schedules u)

theorem perform_keeps_schedulesAreExpansions (e : Event) {s : State} (h : SchedulesAreExpansions s) :
    SchedulesAreExpansions (perform e s) := by
  by_cases he : e = .reset
  · subst he; exact schedulesAreExpansions_hardReset s
  · exact h.of_schedules_eq (perform_schedules he s)

/-- Settles O4: a step is an engine step, an outside event or nothing, and each keeps it. -/
theorem stepKeepsSchedulesExpansions : Obligations.StepKeepsSchedulesExpansions := by
  intro s t h ht
  obtain ⟨c, -, hs⟩ | ⟨e, n, -, -, hs⟩ | ⟨-, -, hs⟩ := step_agents s
  · exact engineStep_keeps_schedulesAreExpansions h (hs ▸ ht)
  · rw [hs] at ht; cases ht
    exact perform_keeps_schedulesAreExpansions e (h.of_schedules_eq rfl)
  · rw [hs] at ht; cases ht
    exact h

end Sys2Proof.Machine
end

section
/-! DSTATE as one 64-bit block, and the two permutations of it (spec/45_des_feistel.md R246, R250, R251). -/

namespace Sys2Proof.Machine

/-- The halves of a block that was split are the block (spec/10_state.md R28). -/
@[simp] theorem splitData_append (d : Block64) : (splitData d)[0] ++ (splitData d)[1] = d := by
  change d.extractLsb' 32 32 ++ d.extractLsb' 0 32 = d
  rw [BitVec.extractLsb'_append_extractLsb'_eq_extractLsb' (by rfl)]
  exact BitVec.extractLsb'_eq_self

/-- Settles O24: `Permute` through a 64-entry table, position by position, on a block that DSTATE holds in halves. -/
theorem desIpFpPermuteTheBits : Obligations.DesIpFpPermuteTheBits := by
  intro s
  refine ⟨_, _, exec_desIp s, exec_desFp s, fun j hj => ?_⟩
  rw [splitData_append, splitData_append]
  exact ⟨permute_getMsbD 64 desIpTable (desData s) rfl j hj, permute_getMsbD 64 desFpTable (desData s) rfl j hj⟩

end Sys2Proof.Machine
end

section
/-! What holds of the block in every state it reaches (`BlockInv`): it holds at reset, and each of the things a step can do
keeps it (spec/10_state.md R23 to R25, R31 to R36, spec/60_exceptions.md R320). -/

namespace Sys2Proof.Machine

/-! ## The reset state (spec/10_state.md R38) -/

theorem reset_w : ∀ i : Fin 60, State.reset.w[i] = 0 := by decide

theorem reset_dk : ∀ k : Fin 16, State.reset.dk[k] = 0 := by decide

/-- Settles O1: the reset state is written out, and the entries of its two memories are the lemmas above. -/
theorem resetHoldsTheSpecValues : Obligations.ResetHoldsTheSpecValues :=
  ⟨rfl, rfl, rfl, rfl, rfl, by decide, by decide, by decide, rfl, rfl, reset_w, reset_dk,
    rfl, rfl, rfl, rfl, rfl, rfl, rfl, rfl⟩

theorem blockInv_hardReset (s : State) : BlockInv (hardReset s) where
  busy_pending := rfl
  pending_cmd _ h := nomatch h
  ctrl_reserved := BitVec.zero_and
  aes_invalid _ := ⟨rfl, reset_w⟩
  aes_valid h := nomatch h
  des_invalid _ := ⟨rfl, reset_dk⟩
  des_valid h := nomatch h
  err_code := .inl rfl
  fault_recorded _ := ⟨rfl, rfl, rfl⟩

/-- Settles O2: the reset state is its own hard reset, and no schedule is valid in it. -/
theorem resetMeetsTheInvariants : Obligations.ResetMeetsTheInvariants :=
  ⟨blockInv_hardReset State.reset, schedulesAreExpansions_of_invalid rfl rfl⟩

/-! ## The engine's step -/

/-- Nothing is pending after a completion without error, so BUSY is 0 and CMD is free. -/
theorem BlockInv.finished {s : State} (h : BlockInv s) : BlockInv (finished s) :=
  { h with
    busy_pending := rfl
    pending_cmd := (nomatch ·, ·)
    err_code := .inl rfl
    fault_recorded := fun hg => ⟨rfl, (h.fault_recorded hg).2⟩ }

/-- A failure shows one of the codes of spec/60_exceptions.md R320, and the fault is recorded. -/
theorem BlockInv.failed {s : State} (h : BlockInv s) {e : BitVec 4} (he : e = 1 ∨ e = 2 ∨ e = 4 ∨ e = 5 ∨ e = 6) :
    BlockInv (failed e s) :=
  { h with
    busy_pending := rfl
    pending_cmd := (nomatch ·, ·)
    err_code := .inr he
    fault_recorded := (nomatch ·) }

/-- Above its `4 (Nr + 1)` words an expansion is padded with zeros (spec/42_aes_key_schedule.md R176). -/
theorem padTo_keyExpansion_zero {lk nk nr : Nat} (hp : aesParams lk = some (nk, nr)) (s : State) (i : Fin 60)
    (hi : 4 * (nr + 1) ≤ i.val) : (padTo 60 0 (keyExpansion nk nr (aesKeyWords s nk)))[i] = 0 := by
  rw [Fin.getElem_fin, padTo_get _ _ _ _ i.isLt, List.getD_eq_default]
  rwa [keyExpansion_length hp]

/-- NR holds each round count of spec/42_aes_key_schedule.md R173 in its four bits. -/
theorem aesParams_roundCount {lk nk nr : Nat} (hp : aesParams lk = some (nk, nr)) :
    (BitVec.ofNat 4 nr = 10 ∨ BitVec.ofNat 4 nr = 12 ∨ BitVec.ofNat 4 nr = 14) ∧ (BitVec.ofNat 4 nr).toNat = nr := by
  obtain ⟨-, rfl⟩ | ⟨-, rfl⟩ | ⟨-, rfl⟩ := aesParams_cases hp <;> decide

/-- AES_KEXP leaves a whole schedule, and DES_KEXP latches no reserved strategy. -/
theorem CommandWrites.keeps_blockInv {s u : State} (hu : CommandWrites s u) (h : BlockInv s) : BlockInv u := by
  cases hu with
  | nothing => exact h
  | reset => exact blockInv_hardReset s
  | res v => exact { h with }
  | state v => exact { h with }
  | dstate v => exact { h with }
  | aesSchedule nk nr hp =>
    obtain ⟨hcount, hval⟩ := aesParams_roundCount hp
    have hzero (i : Fin 60) (hi : 4 * ((BitVec.ofNat 4 nr).toNat + 1) ≤ i.val) :
        (padTo 60 0 (keyExpansion nk nr (aesKeyWords s nk)))[i] = 0 :=
      padTo_keyExpansion_zero hp s i (hval ▸ hi)
    exact { h with aes_invalid := (nomatch ·), aes_valid := fun _ => ⟨hcount, hzero⟩ }
  | desSchedule hs =>
    exact { h with des_invalid := (nomatch ·), des_valid := fun _ => hs }

theorem engineStep_keeps_blockInv {c : Word} {s t : State} (h : BlockInv s) (ht : engineStep c s = .next t) :
    BlockInv t := by
  obtain ⟨e, hcode, he⟩ | ⟨u, hu, he⟩ := engineStep_cases c s
  · rw [he] at ht; cases ht
    exact h.failed hcode
  · rw [he] at ht; cases ht
    exact (hu.keeps_blockInv h).finished

/-! ## The outside events -/

theorem BlockInv.setBerr {s : State} (h : BlockInv s) : BlockInv (setBerr s) :=
  { h with fault_recorded := (nomatch ·) }

theorem BlockInv.setOvr {s : State} (h : BlockInv s) : BlockInv (setOvr s) :=
  { h with fault_recorded := (nomatch ·) }

/-- The bits of CTRL that are stored leave out the reserved ones (spec/10_state.md R23). -/
theorem ctrlMask_reserved (v : Word) : v &&& ctrlMask &&& 0xFFFFFCC0 = 0 := by
  have hmask : ctrlMask &&& 0xFFFFFCC0 = 0#32 := by decide
  rw [BitVec.and_assoc, hmask]; exact BitVec.and_zero

theorem writeReg_keeps_blockInv (r : Reg) (v : Word) {s : State} (h : BlockInv s) : BlockInv (writeReg r v s) := by
  cases r with
  | ctrl => exact { h with ctrl_reserved := ctrlMask_reserved v }
  | cmd => exact { h with busy_pending := rfl, pending_cmd := fun _ hc => Option.some.inj hc }
  | status =>
    have hclear (hg : s.ghostFault = false) :
        s.err = 0 ∧ (clearSticky v s).berr = false ∧ (clearSticky v s).ovr = false := by
      obtain ⟨he, hb, ho⟩ := h.fault_recorded hg
      simp [he, hb, ho]
    exact { h with fault_recorded := hclear }
  | key i => exact { h with }
  | state c => exact { h with }
  | dstate i => exact { h with }
  | opa => exact { h with }
  | id | res | w _ | dkh _ | dkl _ => exact h

theorem hostWrite_keeps_blockInv (off : BitVec 12) (width : Nat) (v : Word) {s : State} (h : BlockInv s) :
    BlockInv (hostWrite off width v s) := by
  obtain ⟨-, e⟩ | ⟨-, e⟩ | ⟨-, e⟩ | ⟨-, r, -, -, e⟩ := hostWrite_cases off width v s <;> rw [e]
  · exact h.setBerr
  · exact h.setOvr
  · exact h.setBerr.setOvr
  · exact writeReg_keeps_blockInv r v h

theorem hostRead_keeps_blockInv (off : BitVec 12) (width : Nat) {s : State} (h : BlockInv s) :
    BlockInv (hostRead off width s).2 := by
  obtain e | e | e := hostRead_state off width s <;> rw [e]
  · exact h
  · exact h.setBerr
  · exact { h with }

theorem perform_keeps_blockInv (e : Event) {s : State} (h : BlockInv s) : BlockInv (perform e s) := by
  obtain ⟨off, width, he⟩ | ⟨off, width, v, -, he⟩ | ⟨off, width, -, he⟩ | ⟨-, he⟩ := perform_cases e s <;> rw [he]
  · exact { hostRead_keeps_blockInv off width h with }
  · exact hostWrite_keeps_blockInv off width v h
  · exact { hostRead_keeps_blockInv off width h with }
  · exact blockInv_hardReset s

/-- Settles O3: a step is an engine step, an outside event or nothing, and each keeps the invariant. -/
theorem stepKeepsTheInvariant : Obligations.StepKeepsTheInvariant := by
  intro s t h ht
  obtain ⟨c, -, hs⟩ | ⟨e, n, -, -, hs⟩ | ⟨-, -, hs⟩ := step_agents s
  · exact engineStep_keeps_blockInv h (hs ▸ ht)
  · rw [hs] at ht; cases ht
    exact perform_keeps_blockInv e { h with }
  · rw [hs] at ht; cases ht
    exact h

end Sys2Proof.Machine
end

section
/-! The commands on which KEY and CTRL do not bear, and through them what the other commands leave as it is: the schedules,
their latches and the sticky flags (spec/10_state.md R23, R26, R33, R34, R37, spec/70_reset_and_hazards.md R376). -/

namespace Sys2Proof.Machine

/-! ## KEY and CTRL bear on no command but the KEXPs and SRST -/

/-- `s` with other values in KEY and CTRL. -/
def State.withKeyCtrl (key : Vector Word 8) (ctrl : Word) (s : State) : State := { s with key := key, ctrl := ctrl }

/-- A command that turns on a valid bit takes the same turn, whatever an update `f` writes elsewhere. -/
theorem next_ite_map (f : State → State) {valid : Bool} {u v t : State}
    (h : (if valid then .next u else .next v : Out State) = .next t) :
    (if valid then .next (f u) else .next (f v) : Out State) = .next (f t) := by
  cases valid <;> cases h <;> rfl

/-- Each of these commands reads its registers, its schedule and that schedule's valid bit, and none of them KEY or CTRL. -/
theorem exec_withKeyCtrl {i : Instr} {s t : State} (key : Vector Word 8) (ctrl : Word) (haes : i ≠ .aesKexp)
    (hdes : i ≠ .desKexp) (hsrst : i ≠ .srst) (h : exec i s = .next t) :
    exec i (s.withKeyCtrl key ctrl) = .next (t.withKeyCtrl key ctrl) := by
  cases i with
  | aesKexp => exact absurd rfl haes
  | desKexp => exact absurd rfl hdes
  | srst => exact absurd rfl hsrst
  | nop | aesSubbytes | aesInvsubbytes | aesShiftrows | aesInvshiftrows | aesMixcolumns | aesInvmixcolumns | aesRotword
  | aesSubword | gfXtime | gfMul | desIp | desFp | desSwap => cases h; rfl
  | aesEnc | aesDec | desF _ | desRound _ | desEnc | desDec =>
    simp only [exec_aesEnc, exec_aesDec, exec_desF, exec_desRound, exec_desEnc, exec_desDec] at h ⊢
    exact next_ite_map (State.withKeyCtrl key ctrl) h
  | aesAddroundkey rnd =>
    cases ha : s.akv with
    | false =>
      rw [exec_aesAddroundkey_noSchedule rnd ha] at h; cases h
      exact exec_aesAddroundkey_noSchedule rnd ha
    | true =>
      rcases Nat.lt_or_ge s.nr.toNat rnd.toNat with hr | hr
      · rw [exec_aesAddroundkey_range ha hr] at h; cases h
        exact exec_aesAddroundkey_range ha hr
      · rw [exec_aesAddroundkey_ok ha hr] at h; cases h
        exact exec_aesAddroundkey_ok ha hr
  | romRead tbl idx =>
    cases hn : romSize tbl with
    | none =>
      rw [exec_romRead_illegal hn] at h; cases h
      exact exec_romRead_illegal hn
    | some n =>
      rcases Nat.lt_or_ge idx.toNat n with hi | hi
      · rw [exec_romRead_ok hn hi] at h; cases h
        exact exec_romRead_ok hn hi
      · rw [exec_romRead_range hn hi] at h; cases h
        exact exec_romRead_range hn hi

/-- Settles O50: every other field of both states is the same, so the command does the same to it. -/
theorem keyAndCtrlBearOnlyOnKexp : Obligations.KeyAndCtrlBearOnlyOnKexp :=
  fun _ _ _ key ctrl haes hdes hsrst h => exec_withKeyCtrl key ctrl haes hdes hsrst h

/-! ## What the other commands leave as it is -/

/-- A command that is no KEXP and not SRST leaves the schedules, BERR and OVR. It would do the same with 0x300 in CTRL,
under which no KEXP makes a write and which a reset would clear, so its writes are to RES, STATE or DSTATE. -/
theorem exec_keeps_schedules_and_sticky {i : Instr} {s t : State} (haes : i ≠ .aesKexp) (hdes : i ≠ .desKexp)
    (hsrst : i ≠ .srst) (h : exec i s = .next t) :
    t.schedules = s.schedules ∧ t.berr = s.berr ∧ t.ovr = s.ovr := by
  have h' := exec_withKeyCtrl s.key 0x300 haes hdes hsrst h
  suffices hk : (t.withKeyCtrl s.key 0x300).schedules = (s.withKeyCtrl s.key 0x300).schedules
      ∧ (t.withKeyCtrl s.key 0x300).berr = (s.withKeyCtrl s.key 0x300).berr
      ∧ (t.withKeyCtrl s.key 0x300).ovr = (s.withKeyCtrl s.key 0x300).ovr from hk
  obtain ⟨e, -, he⟩ | ⟨u, hu, he⟩ := exec_cases i (s.withKeyCtrl s.key 0x300) <;> injection he.symm.trans h' with ht
  · rw [← ht]; exact ⟨rfl, rfl, rfl⟩
  · cases hu with
    | nothing | res _ | state _ | dstate _ => rw [← ht]; exact ⟨rfl, rfl, rfl⟩
    | reset => exact absurd (congrArg State.ctrl ht) (by decide : (0 : Word) ≠ 0x300)
    | aesSchedule nk nr hp => exact absurd hp (by simp [klen, State.withKeyCtrl, aesParams])
    | desSchedule hs => exact absurd (by decide : (0x300 : Word).extractLsb' 8 2 = 3) hs

/-- AES_KEXP writes W, NR and AKV of the schedules and neither sticky flag. -/
theorem exec_aesKexp_keeps {s t : State} (h : exec .aesKexp s = .next t) :
    (∃ w nr akv, t.schedules = { s.schedules with w := w, nr := nr, akv := akv }) ∧ t.berr = s.berr ∧ t.ovr = s.ovr := by
  cases hp : aesParams (klen s).toNat with
  | none => rw [exec_aesKexp_bad hp] at h; cases h; exact ⟨⟨s.w, s.nr, s.akv, rfl⟩, rfl, rfl⟩
  | some p => rw [exec_aesKexp_ok hp] at h; cases h; exact ⟨⟨_, _, _, rfl⟩, rfl, rfl⟩

/-- DES_KEXP writes DK, DSTRAT_L and DKV of the schedules and neither sticky flag. -/
theorem exec_desKexp_keeps {s t : State} (h : exec .desKexp s = .next t) :
    (∃ dk strat dkv, t.schedules = { s.schedules with dk := dk, dstratL := strat, dkv := dkv })
      ∧ t.berr = s.berr ∧ t.ovr = s.ovr := by
  rw [exec_desKexp] at h
  split at h
  · cases h; exact ⟨⟨s.dk, s.dstratL, s.dkv, rfl⟩, rfl, rfl⟩
  · split at h
    · cases h; exact ⟨⟨s.dk, s.dstratL, s.dkv, rfl⟩, rfl, rfl⟩
    · cases h; exact ⟨⟨_, _, _, rfl⟩, rfl, rfl⟩

/-- What an engine step other than SRST's does to the schedules, by its command; it leaves both sticky flags. -/
theorem engineStep_schedules_and_sticky {c : Word} {s t : State} (hc : decode c ≠ .ok .srst)
    (h : engineStep c s = .next t) :
    (t.schedules = s.schedules
      ∨ (decode c = .ok .aesKexp ∧ ∃ w nr akv, t.schedules = { s.schedules with w := w, nr := nr, akv := akv })
      ∨ (decode c = .ok .desKexp
          ∧ ∃ dk strat dkv, t.schedules = { s.schedules with dk := dk, dstratL := strat, dkv := dkv }))
      ∧ t.berr = s.berr ∧ t.ovr = s.ovr := by
  unfold engineStep at h
  cases hd : decode c with
  | error r =>
    simp only [hd, raise_illegalCmd] at h; cases h
    exact ⟨.inl rfl, rfl, rfl⟩
  | ok i =>
    simp only [hd] at h
    by_cases haes : i = .aesKexp
    · subst haes
      obtain ⟨hw, hsticky⟩ := exec_aesKexp_keeps h
      exact ⟨.inr (.inl ⟨rfl, hw⟩), hsticky⟩
    by_cases hdes : i = .desKexp
    · subst hdes
      obtain ⟨hw, hsticky⟩ := exec_desKexp_keeps h
      exact ⟨.inr (.inr ⟨rfl, hw⟩), hsticky⟩
    have hsrst : i ≠ .srst := fun e => hc (hd.trans (e ▸ rfl))
    obtain ⟨hk, hsticky⟩ := exec_keeps_schedules_and_sticky haes hdes hsrst h
    exact ⟨.inl hk, hsticky⟩

/-! ## Who writes the schedules -/

/-- A step that is no reset leaves the schedules as they are, or it is a KEXP's engine step and writes its own family's. -/
theorem step_schedules {s t : State} (h : step s = .next t) :
    resetsNext s ∨ t.schedules = s.schedules
      ∨ (∃ c, engineCommand s = some c ∧ decode c = .ok .aesKexp
          ∧ ∃ w nr akv, t.schedules = { s.schedules with w := w, nr := nr, akv := akv })
      ∨ ∃ c, engineCommand s = some c ∧ decode c = .ok .desKexp
          ∧ ∃ dk strat dkv, t.schedules = { s.schedules with dk := dk, dstratL := strat, dkv := dkv } := by
  obtain ⟨c, hc, hs⟩ | ⟨e, n, -, he, hs⟩ | ⟨-, -, hs⟩ := step_agents s
  · by_cases hd : decode c = .ok .srst
    · exact .inl (.inl ⟨c, hc, hd⟩)
    · obtain ⟨hk | ⟨hk, hw⟩ | ⟨hk, hw⟩, -⟩ := engineStep_schedules_and_sticky hd (hs ▸ h)
      · exact .inr (.inl hk)
      · exact .inr (.inr (.inl ⟨c, hc, hk, hw⟩))
      · exact .inr (.inr (.inr ⟨c, hc, hk, hw⟩))
  · by_cases hr : e = .reset
    · exact .inl (.inr (hr ▸ he))
    · rw [hs] at h; cases h
      exact .inr (.inl (perform_schedules hr _))
  · rw [hs] at h; cases h
    exact .inr (.inl rfl)

/-- Settles O48: a KEXP leaves the other family's half of the schedules. -/
theorem onlyKexpAndResetsWriteSchedules : Obligations.OnlyKexpAndResetsWriteSchedules := by
  intro s t h
  obtain hr | hk | ⟨c, hc, hd, w, nr, akv, hk⟩ | ⟨c, hc, hd, dk, strat, dkv, hk⟩ := step_schedules h
  · exact ⟨fun _ => .inr hr, fun _ => .inr hr⟩
  all_goals
    simp only [State.schedules, Schedules.mk.injEq] at hk
    obtain ⟨hw, hnr, hakv, hdk, hstrat, hdkv⟩ := hk
  · simp [hw, hnr, hakv, hdk, hstrat, hdkv]
  · exact ⟨fun _ => .inl ⟨c, hc, hd⟩, by simp [hdk, hstrat, hdkv]⟩
  · exact ⟨by simp [hw, hnr, hakv], fun _ => .inl ⟨c, hc, hd⟩⟩

end Sys2Proof.Machine
end

section
/-! Who writes ERR, BERR and OVR: each outside event's effect on the three flags (spec/10_state.md R25, R37,
spec/20_memory.md R67, spec/70_reset_and_hazards.md R368). -/

namespace Sys2Proof.Machine

/-! ## ERR -/

@[simp] theorem writeReg_err (r : Reg) (v : Word) (s : State) : (writeReg r v s).err = s.err := by
  cases r <;> rfl

@[simp] theorem hostWrite_err (off : BitVec 12) (width : Nat) (v : Word) (s : State) :
    (hostWrite off width v s).err = s.err := by
  obtain ⟨-, h⟩ | ⟨-, h⟩ | ⟨-, h⟩ | ⟨-, r, -, -, h⟩ := hostWrite_cases off width v s <;> simp [h]

@[simp] theorem hostRead_err (off : BitVec 12) (width : Nat) (s : State) : (hostRead off width s).2.err = s.err := by
  obtain h | h | h := hostRead_state off width s <;> simp [h]

/-- An outside event other than a reset leaves ERR. -/
theorem perform_err {e : Event} (he : e ≠ .reset) (s : State) : (perform e s).err = s.err := by
  obtain ⟨off, width, h⟩ | ⟨off, width, v, -, h⟩ | ⟨off, width, -, h⟩ | ⟨hr, -⟩ := perform_cases e s
  · rw [h]; exact hostRead_err off width s
  · rw [h]; exact hostWrite_err off width v s
  · rw [h]; exact hostRead_err off width s
  · exact absurd hr he

/-! ## The sticky flags on the bus -/

/-- A write to STATUS clears BERR by its bit 3, and no other stored write touches it. -/
theorem writeReg_berr (r : Reg) (v : Word) (s : State) :
    (writeReg r v s).berr = (s.berr && !(decide (r = .status) && v.getLsbD 3)) := by
  cases r <;> simp [writeReg]

/-- A write to STATUS clears OVR by its bit 4, and no other stored write touches it. -/
theorem writeReg_ovr (r : Reg) (v : Word) (s : State) :
    (writeReg r v s).ovr = (s.ovr && !(decide (r = .status) && v.getLsbD 4)) := by
  cases r <;> simp [writeReg]

/-- A read that is no bus error leaves BERR. -/
theorem hostRead_berr {off : BitVec 12} {width : Nat} (h : ¬ badAccess off.toNat width) (s : State) :
    (hostRead off width s).2.berr = s.berr := by
  rw [← readTarget_none_iff] at h
  obtain ⟨r, hr⟩ := Option.ne_none_iff_exists'.mp h
  simp only [hostRead, hr]
  split <;> rfl

@[simp] theorem hostRead_ovr (off : BitVec 12) (width : Nat) (s : State) : (hostRead off width s).2.ovr = s.ovr := by
  obtain h | h | h := hostRead_state off width s <;> simp [h]

/-- No read clears BERR. -/
theorem hostRead_keeps_berr (off : BitVec 12) (width : Nat) {s : State} (hb : s.berr = true) :
    (hostRead off width s).2.berr = true := by
  obtain h | h | h := hostRead_state off width s <;> rw [h]
  · exact hb
  · rfl
  · exact hb

/-- A write raises BERR only as a bus error. -/
theorem hostWrite_raises_berr {off : BitVec 12} {width : Nat} {v : Word} {s : State} (hs : s.berr = false)
    (ht : (hostWrite off width v s).berr = true) : badAccess off.toNat width ∨ readOnlyOffset off.toNat := by
  rw [← writeTarget_none_iff]
  by_contra h
  obtain ⟨r, hr⟩ := Option.ne_none_iff_exists'.mp h
  simp only [hostWrite, hr] at ht
  split at ht <;> simp [hs, writeReg_berr] at ht

/-- A write raises OVR only while BUSY is 1. -/
theorem hostWrite_raises_ovr {off : BitVec 12} {width : Nat} {v : Word} {s : State} (hs : s.ovr = false)
    (ht : (hostWrite off width v s).ovr = true) : s.busy = true := by
  obtain ⟨-, h⟩ | ⟨hb, -⟩ | ⟨hb, -⟩ | ⟨-, r, -, -, h⟩ := hostWrite_cases off width v s
  · simp [h, hs] at ht
  · exact hb
  · exact hb
  · simp [h, writeReg_ovr, hs] at ht

/-- `e` is a write that clears the sticky flag at bit `bit` of STATUS: 32 bits wide, of a 1 there, while BUSY is 0. -/
def ClearsSticky (bit : Nat) (e : Event) (s : State) : Prop :=
  s.busy = false ∧ ∃ v : Word, e = .write 0x00C 32 v ∧ v.getLsbD bit = true

/-- A write clears a sticky flag only through STATUS. -/
theorem hostWrite_clears (off : BitVec 12) (width : Nat) (v : Word) (s : State) :
    (s.berr = true → (hostWrite off width v s).berr = false → ClearsSticky 3 (.write off width v) s)
      ∧ (s.ovr = true → (hostWrite off width v s).ovr = false → ClearsSticky 4 (.write off width v) s) := by
  obtain ⟨-, h⟩ | ⟨-, h⟩ | ⟨-, h⟩ | ⟨hb, r, -, hr, h⟩ := hostWrite_cases off width v s
  · simp +contextual [h]
  · simp +contextual [h]
  · simp [h]
  · obtain ⟨rfl, rfl, -⟩ := eq_offset_of_writeTarget hr
    rw [h, writeReg_berr, writeReg_ovr]
    constructor
    · intro hs ht
      obtain ⟨rfl, hv⟩ : r = .status ∧ v.getLsbD 3 = true := by simpa [hs] using ht
      exact ⟨hb, v, rfl, hv⟩
    · intro hs ht
      obtain ⟨rfl, hv⟩ : r = .status ∧ v.getLsbD 4 = true := by simpa [hs] using ht
      exact ⟨hb, v, rfl, hv⟩

/-! ## The sticky flags under an outside event -/

/-- A poll reads STATUS, which is no bus error, and leaves the sticky flags. -/
theorem perform_poll_sticky (s : State) : (perform .poll s).berr = s.berr ∧ (perform .poll s).ovr = s.ovr := by
  cases hb : s.busy <;> simp [perform, recordRead, hb, hostRead, Reg.datapath]

theorem perform_raises_berr {e : Event} {s : State} (hs : s.berr = false) (ht : (perform e s).berr = true) :
    (∃ off width, e = .read off width ∧ badAccess off.toNat width)
      ∨ ∃ off width v, e = .write off width v ∧ (badAccess off.toNat width ∨ readOnlyOffset off.toNat) := by
  cases e with
  | read off width =>
    refine .inl ⟨off, width, rfl, ?_⟩
    by_contra h
    exact absurd ((hostRead_berr h s).symm.trans ht) (by simp [hs])
  | write off width v => exact .inr ⟨off, width, v, rfl, hostWrite_raises_berr hs ht⟩
  | poll => simp [(perform_poll_sticky s).1, hs] at ht
  | reset => cases ht

theorem perform_raises_ovr {e : Event} {s : State} (hs : s.ovr = false) (ht : (perform e s).ovr = true) :
    s.busy = true ∧ ∃ off width v, e = .write off width v := by
  cases e with
  | read off width => exact absurd ((hostRead_ovr off width s).symm.trans ht) (by simp [hs])
  | write off width v => exact ⟨hostWrite_raises_ovr hs ht, off, width, v, rfl⟩
  | poll => simp [(perform_poll_sticky s).2, hs] at ht
  | reset => cases ht

theorem perform_clears {e : Event} (he : e ≠ .reset) (s : State) :
    (s.berr = true → (perform e s).berr = false → ClearsSticky 3 e s)
      ∧ (s.ovr = true → (perform e s).ovr = false → ClearsSticky 4 e s) := by
  cases e with
  | read off width =>
    have ho : (perform (.read off width) s).ovr = s.ovr := hostRead_ovr off width s
    refine ⟨fun hs ht => ?_, fun hs ht => ?_⟩
    · exact absurd ((hostRead_keeps_berr off width hs).symm.trans ht) (by decide)
    · simp [ho, hs] at ht
  | write off width v => exact hostWrite_clears off width v s
  | poll =>
    obtain ⟨hb, ho⟩ := perform_poll_sticky s
    simp +contextual [hb, ho]
  | reset => exact absurd rfl he

/-- What an outside event can do to the three flags. -/
theorem perform_flags (e : Event) (s : State) :
    ((perform e s).err ≠ s.err → e = .reset)
      ∧ (s.berr = false → (perform e s).berr = true →
          (∃ off width, e = .read off width ∧ badAccess off.toNat width)
            ∨ ∃ off width v, e = .write off width v ∧ (badAccess off.toNat width ∨ readOnlyOffset off.toNat))
      ∧ (s.berr = true → (perform e s).berr = false → ClearsSticky 3 e s ∨ e = .reset)
      ∧ (s.ovr = false → (perform e s).ovr = true → s.busy = true ∧ ∃ off width v, e = .write off width v)
      ∧ (s.ovr = true → (perform e s).ovr = false → ClearsSticky 4 e s ∨ e = .reset) := by
  exact ⟨fun hne => by_contra fun he => hne (perform_err he s), perform_raises_berr,
    fun hb ht => or_iff_not_imp_right.mpr fun he => (perform_clears he s).1 hb ht, perform_raises_ovr,
    fun ho ht => or_iff_not_imp_right.mpr fun he => (perform_clears he s).2 ho ht⟩

/-! ## The step -/

/-- An engine step raises no sticky flag, and only SRST's clears one. -/
theorem engineStep_sticky {c : Word} {s t : State} (h : engineStep c s = .next t) :
    (decode c = .ok .srst ∧ t.berr = false ∧ t.ovr = false) ∨ (t.berr = s.berr ∧ t.ovr = s.ovr) := by
  by_cases hc : decode c = .ok .srst
  · simp only [engineStep, hc, exec_srst] at h; cases h
    exact .inl ⟨hc, rfl, rfl⟩
  · exact .inr (engineStep_schedules_and_sticky hc h).2

/-- Settles O49: by whose step it is. -/
theorem flagsHaveTheirWriters : Obligations.FlagsHaveTheirWriters := by
  intro s t h
  obtain ⟨c, hc, hs⟩ | ⟨e, n, -, he, hs⟩ | ⟨-, -, hs⟩ := step_agents s
  · rw [hs] at h
    refine ⟨fun _ => .inl (by simp [hc]), ?_⟩
    obtain ⟨hd, hb, ho⟩ | ⟨hb, ho⟩ := engineStep_sticky h
    · have hr : resetsNext s := .inl ⟨c, hc, hd⟩
      simp [hb, ho, hr]
    · simp +contextual [hb, ho]
  · rw [hs] at h; cases h
    simp only [he, Option.some.injEq]
    have hreset (hr : e = .reset) : resetsNext s := .inr (hr ▸ he)
    obtain ⟨herr, hberr, hberr', hovr, hovr'⟩ := perform_flags e { s with events := s.events.tail, wait := n }
    exact ⟨fun hne => .inr (hreset (herr hne)), hberr, fun hb ht => (hberr' hb ht).imp_right hreset, hovr,
      fun ho ht => (hovr' ho ht).imp_right hreset⟩
  · rw [hs] at h; cases h
    simp +contextual

end Sys2Proof.Machine
end

section
/-! The host window while idle: what a write stores, and STATUS field by field (spec/10_state.md R23 to R29). -/

namespace Sys2Proof.Machine

/-- Settles O52: each offset is its register's, and an idle write there is `writeReg`. -/
theorem idleWritesStoreTheirRegister : Obligations.IdleWritesStoreTheirRegister := by
  intro s v hs
  exact ⟨hostWrite_idle hs (r := .ctrl) rfl v, hostWrite_idle hs (r := .opa) rfl v,
    fun i => hostWrite_idle hs (r := .key i) rfl v, fun c => hostWrite_idle hs (r := .state c) rfl v,
    fun h => hostWrite_idle hs (r := .dstate h) rfl v⟩

/-- A field of STATUS is given by its bits. -/
theorem statusWord_field {s : State} {start len : Nat} {x : BitVec len}
    (h : ∀ i < len, (statusWord s).getLsbD (start + i) = x.getLsbD i) :
    (statusWord s).extractLsb' start len = x :=
  BitVec.eq_of_getLsbD_eq fun i hi => by simp only [BitVec.getLsbD_extractLsb', hi, decide_true, Bool.true_and, h i hi]

/-- STATUS has 18 bits of fields and zeros above. -/
theorem statusWord_high (s : State) {i : Nat} (hi : 18 ≤ i) : (statusWord s).getLsbD i = false := by
  rw [statusWord, BitVec.getLsbD_setWidth, BitVec.getLsbD_of_ge _ i (by omega), Bool.and_false]

/-- Settles O53: each field bit by bit, and an idle write to STATUS is `clearSticky`. -/
theorem statusReadsAndClears : Obligations.StatusReadsAndClears := by
  intro s
  refine ⟨statusWord_bit s 0 (by decide), statusWord_bit s 1 (by decide), statusWord_bit s 2 (by decide),
    statusWord_bit s 3 (by decide), statusWord_bit s 4 (by decide), statusWord_field fun i hi => ?_,
    statusWord_field fun i hi => ?_, statusWord_field fun i hi => ?_, statusWord_field fun i hi => ?_,
    statusWord_field fun i hi => ?_, fun v hs => ?_⟩
  · interval_cases i <;> exact statusWord_bit s _ (by decide)
  · interval_cases i <;> exact statusWord_bit s _ (by decide)
  · interval_cases i <;> exact statusWord_bit s _ (by decide)
  · interval_cases i <;> exact statusWord_bit s _ (by decide)
  · simp [statusWord_high s (Nat.le_add_right 18 i)]
  · have hwrite : hostWrite 0x00C 32 v s = clearSticky v s := hostWrite_idle hs (r := .status) rfl v
    rw [hwrite, clearSticky]
    cases v.getLsbD 3 <;> cases v.getLsbD 4 <;> simp

end Sys2Proof.Machine
end

section
/-! The host window and the outside events: what a bus error does, what an idle read returns, and the order of the events
(spec/20_memory.md R60 to R71). -/

namespace Sys2Proof.Machine

/-! ## Bus errors -/

/-- A bad read answers 0 and records the bus error (spec/20_memory.md R67). -/
theorem hostRead_of_badAccess {off : BitVec 12} {width : Nat} (h : badAccess off.toNat width) (s : State) :
    hostRead off width s = (0, setBerr s) := by
  simp [hostRead, (readTarget_none_iff off width).mpr h]

/-- A write that is a bus error is dropped, and counts as an overrun too while busy (spec/20_memory.md R67). -/
theorem hostWrite_of_busError {off : BitVec 12} {width : Nat} (h : badAccess off.toNat width ∨ readOnlyOffset off.toNat)
    (v : Word) (s : State) : hostWrite off width v s = if s.busy then setOvr (setBerr s) else setBerr s := by
  simp [hostWrite, (writeTarget_none_iff off width).mpr h]

/-- Settles O54: a bus error is an access that reaches no register. -/
theorem busErrorsSetBerr : Obligations.BusErrorsSetBerr := by
  intro off width v s
  refine ⟨fun hbad => hostRead_of_badAccess hbad s, fun hgood => hostRead_berr hgood s, fun herr hs => ?_, fun herr hs => ?_⟩
  · simp [hostWrite_of_busError herr, hs, setBerr]
  · simp [hostWrite_of_busError herr, hs, setBerr, setOvr]

/-! ## Reads while idle -/

/-- Settles O51: each offset is its register's, and an idle read there is `readReg`. -/
theorem idleReadsReturnTheRegisters : Obligations.IdleReadsReturnTheRegisters := by
  intro s hs
  exact ⟨hostRead_idle hs .id, hostRead_idle hs .ctrl, hostRead_idle hs .cmd, hostRead_idle hs .status,
    hostRead_idle hs .opa, hostRead_idle hs .res, fun i => hostRead_idle hs (.key i), fun c => hostRead_idle hs (.state c),
    fun h => hostRead_idle hs (.dstate h), fun i => hostRead_idle hs (.w i),
    fun k => ⟨hostRead_idle hs (.dkh k), hostRead_idle hs (.dkl k)⟩⟩

/-! ## The order of outside events -/

/-- STATUS is no datapath register: it reads as it is, idle or busy. -/
@[simp] theorem hostRead_status (s : State) : hostRead (Reg.offset .status) 32 s = (statusWord s, s) := by
  simp [hostRead, Reg.datapath, readReg]

/-- A poll records STATUS, and stays to come while STATUS shows BUSY. -/
theorem perform_poll (s : State) :
    perform .poll s =
      { s with
        returned := statusWord s :: s.returned
        events := if s.busy then .poll :: s.events else s.events } := by
  cases hb : s.busy <;> simp [perform, recordRead, hb]

/-- With nothing pending the step is the outside world's. -/
theorem step_of_pending_none {s : State} (hp : s.pending = none) : step s = .next (outsideStep s) := by
  simp [step, hp]

/-- A pending command with turns to wait lets one outside event go first. -/
theorem step_of_waiting {s : State} {e : Event} {rest : List Event} {c : Word} {n : Nat} (he : s.events = e :: rest)
    (hp : s.pending = some c) (hw : s.wait = n + 1) : step s = .next (perform e { s with events := rest, wait := n }) := by
  simp [step, hp, engineTurn, hw, he, outsideStep]

/-- Settles O46: whose turn it is first, then what performing each event does. -/
theorem outsideEventsComeInOrder : Obligations.OutsideEventsComeInOrder := by
  intro s
  refine ⟨fun e rest he hp => ?_, fun e rest c n he hp hw => step_of_waiting he hp hw, fun he hp => ?_,
    fun off width v => rfl, fun off width => rfl, fun hb => ?_, fun hb => ?_⟩
  · rw [step_of_pending_none hp, outsideStep, he]
  · rw [step_of_pending_none hp, outsideStep, he]
  · simp [perform_poll, hb]
  · simp [perform_poll, hb]

end Sys2Proof.Machine
end

section
/-! The decoder and the encoder as inverses: a command word is its five fields, a word decodes to a command exactly when the
command is legal and encodes to it, and with a command's mask that is a match (spec/30_encoding.md R90 to R94, R98). -/

namespace Sys2Proof

/-! ## A word and its fields (spec/30_encoding.md R90) -/

theorem fields_append (c : Word) : rsvField c ++ idxField c ++ tblField c ++ rndField c ++ opcField c = c := by
  unfold rsvField idxField tblField rndField opcField
  rw [BitVec.extractLsb'_append_extractLsb'_eq_extractLsb' (by rfl),
    BitVec.extractLsb'_append_extractLsb'_eq_extractLsb' (by rfl),
    BitVec.extractLsb'_append_extractLsb'_eq_extractLsb' (by rfl),
    BitVec.extractLsb'_append_extractLsb'_eq_extractLsb' (by rfl)]
  exact BitVec.extractLsb'_eq_self

/-- Two words are the same exactly when their fields are. -/
theorem eq_iff_fields {c d : Word} :
    c = d ↔ opcField c = opcField d ∧ rndField c = rndField d ∧ tblField c = tblField d ∧ idxField c = idxField d
      ∧ rsvField c = rsvField d := by
  constructor
  · rintro rfl; simp
  · rintro ⟨hopc, hrnd, htbl, hidx, hrsv⟩
    rw [← fields_append c, ← fields_append d, hopc, hrnd, htbl, hidx, hrsv]

/-- A word is the encoding of given fields exactly when they are its fields and RSV is zero. -/
theorem eq_enc_iff {c : Word} {opc : BitVec 8} {rnd tbl : BitVec 4} {idx : BitVec 9} :
    c = enc opc rnd tbl idx ↔
      opcField c = opc ∧ rndField c = rnd ∧ tblField c = tbl ∧ idxField c = idx ∧ rsvField c = 0 := by
  rw [eq_iff_fields, opcField_enc, rndField_enc, tblField_enc, idxField_enc, rsvField_enc]

/-- A masked word is the encoding of given fields exactly when each field under its part of the mask is the given one. -/
theorem and_eq_enc_iff {c m : Word} {opc : BitVec 8} {rnd tbl : BitVec 4} {idx : BitVec 9} :
    c &&& m = enc opc rnd tbl idx ↔
      opcField c &&& opcField m = opc ∧ rndField c &&& rndField m = rnd ∧ tblField c &&& tblField m = tbl
        ∧ idxField c &&& idxField m = idx ∧ rsvField c &&& rsvField m = 0 := by
  simp only [eq_enc_iff, opcField, rndField, tblField, idxField, rsvField, BitVec.extractLsb'_and]

/-! ## The three shapes of a command (spec/30_encoding.md R92) -/

theorem decodePlain_eq_ok {c : Word} {i j : Instr} (h : decodePlain c i = .ok j) :
    i = j ∧ c = enc (opcField c) 0 0 0 := by
  unfold decodePlain at h
  split at h
  · next hzero => cases h; exact ⟨rfl, eq_enc_iff.mpr ⟨rfl, hzero⟩⟩
  · cases h

theorem decodeRound_eq_ok {c : Word} {f : BitVec 4 → Instr} {j : Instr} (h : decodeRound c f = .ok j) :
    f (rndField c) = j ∧ c = enc (opcField c) (rndField c) 0 0 := by
  unfold decodeRound at h
  split at h
  · next hzero => cases h; exact ⟨rfl, eq_enc_iff.mpr ⟨rfl, rfl, hzero⟩⟩
  · cases h

theorem decodeRomRead_eq_ok {c : Word} {j : Instr} (h : decodeRomRead c = .ok j) :
    .romRead (tblField c) (idxField c) = j ∧ (tblField c).toNat ≤ 10
      ∧ c = enc (opcField c) 0 (tblField c) (idxField c) := by
  unfold decodeRomRead at h
  split at h
  · next hzero =>
    obtain ⟨hrnd, hrsv⟩ := hzero
    split at h
    · next htbl => cases h; exact ⟨rfl, htbl, eq_enc_iff.mpr ⟨rfl, hrnd, rfl, rfl, hrsv⟩⟩
    · cases h
  · cases h

/-! ## Decode and encode -/

/-- A legal command's word decodes to it: `enc` keeps its fields and leaves the unused ones zero. -/
theorem decode_encode {i : Instr} (hi : i.wf = true) : decode (encode i) = .ok i := by
  cases i with
  | aesAddroundkey rnd | desF rnd | desRound rnd =>
    simp [decode, encode, Instr.opcode, opcField_enc, decodeRound, rndField_enc, tblField_enc, idxField_enc, rsvField_enc]
  | romRead tbl idx =>
    have htbl : tbl.toNat ≤ 10 := by simpa [Instr.wf] using hi
    simp [decode, encode, Instr.opcode, opcField_enc, decodeRomRead, rndField_enc, tblField_enc, idxField_enc,
      rsvField_enc, htbl]
  | nop | srst | aesKexp | aesSubbytes | aesInvsubbytes | aesShiftrows | aesInvshiftrows | aesMixcolumns
  | aesInvmixcolumns | aesEnc | aesDec | aesRotword | aesSubword | gfXtime | gfMul | desKexp | desIp | desFp | desSwap
  | desEnc | desDec => rfl

/-- Settles O42: the decoder finds the fields that `enc` placed. -/
theorem decodeOfEncodeIsTheCommand : Obligations.DecodeOfEncodeIsTheCommand := fun _ hi => decode_encode hi

/-- A plain command is found only at its own word. -/
theorem legal_of_decodePlain {c : Word} {i j : Instr} (h : decodePlain c i = .ok j)
    (hopc : (opcField c).toNat = i.opcode.toNat) (hwf : i.wf = true) (henc : encode i = enc i.opcode 0 0 0) :
    j.wf = true ∧ encode j = c := by
  obtain ⟨rfl, hc⟩ := decodePlain_eq_ok h
  exact ⟨hwf, by rw [henc, ← BitVec.eq_of_toNat_eq hopc, ← hc]⟩

/-- A command with a round index is found only at its own word. -/
theorem legal_of_decodeRound {c : Word} {f : BitVec 4 → Instr} {j : Instr} (h : decodeRound c f = .ok j)
    (hopc : ∀ rnd, (opcField c).toNat = (f rnd).opcode.toNat) (hwf : ∀ rnd, (f rnd).wf = true)
    (henc : ∀ rnd, encode (f rnd) = enc (f rnd).opcode rnd 0 0) : j.wf = true ∧ encode j = c := by
  obtain ⟨rfl, hc⟩ := decodeRound_eq_ok h
  exact ⟨hwf _, by rw [henc, ← BitVec.eq_of_toNat_eq (hopc _), ← hc]⟩

/-- ROM_READ is found only at its own word, and with a ROM that exists. -/
theorem legal_of_decodeRomRead {c : Word} {j : Instr} (h : decodeRomRead c = .ok j)
    (hopc : (opcField c).toNat = (0x30 : BitVec 8).toNat) : j.wf = true ∧ encode j = c := by
  obtain ⟨rfl, htbl, hc⟩ := decodeRomRead_eq_ok h
  exact ⟨decide_eq_true htbl, by rw [encode, Instr.opcode, ← BitVec.eq_of_toNat_eq hopc, ← hc]⟩

/-- What the decoder finds is legal, and the word is its encoding; the cases are the rows of the opcode map in its order. -/
theorem legal_of_decode {c : Word} {i : Instr} (h : decode c = .ok i) : i.wf = true ∧ encode i = c := by
  unfold decode at h
  split at h <;> rename_i hopc
  iterate 9 exact legal_of_decodePlain h hopc rfl rfl
  · exact legal_of_decodeRound h (fun _ => hopc) (fun _ => rfl) (fun _ => rfl)
  iterate 6 exact legal_of_decodePlain h hopc rfl rfl
  · exact legal_of_decodeRomRead h hopc
  iterate 3 exact legal_of_decodePlain h hopc rfl rfl
  iterate 2 exact legal_of_decodeRound h (fun _ => hopc) (fun _ => rfl) (fun _ => rfl)
  iterate 3 exact legal_of_decodePlain h hopc rfl rfl
  · cases h

/-- The words that decode are the encodings of the legal commands, each to its command. -/
theorem decode_eq_ok_iff {c : Word} {i : Instr} : decode c = .ok i ↔ i.wf = true ∧ encode i = c :=
  ⟨legal_of_decode, fun ⟨hi, hc⟩ => hc ▸ decode_encode hi⟩

/-! ## Match and mask (spec/30_encoding.md R92) -/

/-- A plain command's mask covers the whole word. -/
theorem decode_eq_plain_iff {i : Instr} (hwf : i.wf = true) (c : Word) :
    decode c = .ok i ↔ c &&& 0xFFFFFFFF = encode i := by
  rw [decode_eq_ok_iff, show (0xFFFFFFFF : Word) = BitVec.allOnes 32 from rfl, BitVec.and_allOnes]
  exact ⟨fun ⟨_, hc⟩ => hc.symm, fun hc => ⟨hwf, hc.symm⟩⟩

/-- The mask of a command with a round index leaves out RND. -/
theorem enc_round_eq_iff (opc : BitVec 8) (rnd : BitVec 4) (c : Word) :
    enc opc rnd 0 0 = c ↔ c &&& 0xFFFFF0FF = enc opc 0 0 0 ∧ rnd = rndField c := by
  have hmask : opcField 0xFFFFF0FF = BitVec.allOnes 8 ∧ rndField 0xFFFFF0FF = 0#4 ∧ tblField 0xFFFFF0FF = BitVec.allOnes 4
      ∧ idxField 0xFFFFF0FF = BitVec.allOnes 9 ∧ rsvField 0xFFFFF0FF = BitVec.allOnes 7 := by decide
  obtain ⟨hopc, hrnd, htbl, hidx, hrsv⟩ := hmask
  rw [eq_comm, eq_enc_iff, and_eq_enc_iff, hopc, hrnd, htbl, hidx, hrsv]
  simp only [BitVec.and_allOnes, BitVec.and_zero]
  tauto

/-- The mask of ROM_READ leaves out TBL and IDX. -/
theorem enc_rom_eq_iff (opc : BitVec 8) (tbl : BitVec 4) (idx : BitVec 9) (c : Word) :
    enc opc 0 tbl idx = c ↔ c &&& 0xFE000FFF = enc opc 0 0 0 ∧ tbl = tblField c ∧ idx = idxField c := by
  have hmask : opcField 0xFE000FFF = BitVec.allOnes 8 ∧ rndField 0xFE000FFF = BitVec.allOnes 4 ∧ tblField 0xFE000FFF = 0#4
      ∧ idxField 0xFE000FFF = 0#9 ∧ rsvField 0xFE000FFF = BitVec.allOnes 7 := by decide
  obtain ⟨hopc, hrnd, htbl, hidx, hrsv⟩ := hmask
  rw [eq_comm, eq_enc_iff, and_eq_enc_iff, hopc, hrnd, htbl, hidx, hrsv]
  simp only [BitVec.and_allOnes, BitVec.and_zero]
  tauto

theorem decode_eq_round_iff {f : BitVec 4 → Instr} (hwf : ∀ rnd, (f rnd).wf = true)
    (henc : ∀ rnd, encode (f rnd) = enc (f 0).opcode rnd 0 0) (c : Word) (rnd : BitVec 4) :
    decode c = .ok (f rnd) ↔ c &&& 0xFFFFF0FF = encode (f 0) ∧ rnd = rndField c := by
  rw [decode_eq_ok_iff, henc, henc, enc_round_eq_iff]
  exact and_iff_right (hwf rnd)

theorem decode_eq_romRead_iff (c : Word) (tbl : BitVec 4) (idx : BitVec 9) :
    decode c = .ok (.romRead tbl idx) ↔
      c &&& 0xFE000FFF = encode (.romRead 0 0) ∧ tbl = tblField c ∧ idx = idxField c ∧ tbl.toNat ≤ 10 := by
  have hrom : encode (.romRead tbl idx) = c ↔
      c &&& 0xFE000FFF = encode (.romRead 0 0) ∧ tbl = tblField c ∧ idx = idxField c := enc_rom_eq_iff _ tbl idx c
  simp only [decode_eq_ok_iff, Instr.wf, decide_eq_true_iff, hrom]
  tauto

/-- Settles O43: row by row, a plain command, one with a round index, or ROM_READ. -/
theorem decodeFollowsMatchAndMask : Obligations.DecodeFollowsMatchAndMask := by
  intro c
  have hplain {i : Instr} (hwf : i.wf = true) := decode_eq_plain_iff hwf c
  have hround {f : BitVec 4 → Instr} (hwf : ∀ rnd, (f rnd).wf = true)
    (henc : ∀ rnd, encode (f rnd) = enc (f 0).opcode rnd 0 0) := decode_eq_round_iff hwf henc c
  exact ⟨hplain rfl, hplain rfl, hplain rfl, hplain rfl, hplain rfl, hplain rfl, hplain rfl, hplain rfl, hplain rfl,
    hround (fun _ => rfl) (fun _ => rfl), hplain rfl, hplain rfl, hplain rfl, hplain rfl, hplain rfl, hplain rfl,
    decode_eq_romRead_iff c, hplain rfl, hplain rfl, hplain rfl, hround (fun _ => rfl) (fun _ => rfl),
    hround (fun _ => rfl) (fun _ => rfl), hplain rfl, hplain rfl, hplain rfl⟩

/-- Settles O44: seven words are those of legal commands, and three break each a rule of R92. -/
theorem writtenOutWordsDecode : Obligations.WrittenOutWordsDecode :=
  ⟨decode_encode (i := .srst) rfl, decode_encode (i := .aesKexp) rfl, decode_encode (i := .aesAddroundkey 10) rfl,
    decode_encode (i := .gfMul) rfl, decode_encode (i := .romRead 10 0x1FF) rfl, decode_encode (i := .desRound 15) rfl,
    decode_encode (i := .desEnc) rfl, by decide, by decide, by decide⟩

end Sys2Proof

namespace Sys2Proof.Machine

/-! ## The engine on legal and on illegal words (spec/30_encoding.md R94) -/

/-- The engine's step on a legal command's word is the command's meaning. -/
theorem engineStep_encode {i : Instr} (hi : i.wf = true) (s : State) : engineStep (encode i) s = exec i s := by
  simp [engineStep, decode_encode hi]

/-- Settles O37: only the encodings of legal commands decode, and acceptance does not look at the word. -/
theorem illegalWordsCompleteWithIllegalCmd : Obligations.IllegalWordsCompleteWithIllegalCmd := by
  intro c s hc
  refine ⟨?_, fun hs => ?_⟩
  · cases hd : decode c with
    | ok i =>
      obtain ⟨hi, henc⟩ := decode_eq_ok_iff.mp hd
      exact absurd henc (hc i hi)
    | error r => simp [engineStep, hd]
  · have haccept : hostWrite 0x008 32 c s = acceptCmd c s := hostWrite_idle hs (r := .cmd) rfl c
    rw [haccept]; rfl

end Sys2Proof.Machine
end

section
/-! AES_SETKEY and DES_SETKEY on an idle block: the registers they write, and the command they run on them
(spec/30_encoding.md R100, spec/10_state.md R23, R26). -/

namespace Sys2Proof.Machine

/-! ## Running a command -/

/-- A legal command run on an idle block is its meaning on the state that has accepted its word. -/
theorem runCommand_eq_exec {i : Instr} (hi : i.wf = true) {s : State} (hs : s.busy = false) :
    runCommand i s = exec i (acceptCmd (encode i) s) := by
  rw [runCommand_idle hs, engineStep_encode hi]

theorem runChecked_of_finished {i : Instr} {s u : State} (h : runCommand i s = .next (finished u)) :
    runChecked i s = .ok (finished u) := by
  simp [runChecked, h]

theorem runChecked_of_failed {i : Instr} {s u : State} {e : BitVec 4} (he : e ≠ 0)
    (h : runCommand i s = .next (failed e u)) : runChecked i s = .error (.command e) := by
  rw [runChecked, h]
  exact if_neg he

/-! ## The registers a call writes -/

theorem storeWords_append (ws us : List (Reg × Word)) (s : State) :
    storeWords (ws ++ us) s = storeWords us (storeWords ws s) := List.foldl_append

/-- Words stored to KEY registers change KEY alone, and each register stored to holds its word. -/
theorem storeWords_key (f : Fin 8 → Word) (is : List (Fin 8)) {s : State} (hs : s.busy = false) :
    ∃ k : Vector Word 8, storeWords (is.map fun i => (Reg.key i, f i)) s = { s with key := k }
      ∧ ∀ j : Fin 8, k[j] = if j ∈ is then f j else s.key[j] := by
  induction is generalizing s with
  | nil => exact ⟨s.key, rfl, fun j => by simp⟩
  | cons i is ih =>
    obtain ⟨k, hk, hget⟩ := ih (s := writeReg (.key i) (f i) s) hs
    refine ⟨k, ?_, fun j => ?_⟩
    · rw [List.map_cons, storeWords, List.foldl_cons, hostWrite_idle hs rfl]
      exact hk
    · rw [hget j]
      by_cases hij : i = j
      · subst hij; simp [writeReg]
      · have hne : ¬ j = i := fun h => hij h.symm
        simp [writeReg, hne, Fin.val_inj, hij]

/-- KEY holds the bytes of `key` it has registers for: byte `4 j + r` is byte r of KEY[j] (spec/10_state.md R26). -/
def KeyHolds (key : List Byte) (k : Vector Word 8) : Prop :=
  ∀ j : Fin 8, 4 * j.val < key.length → k[j] = packWord fun r => key.getD (4 * j.val + r.val) 0

/-- A call's writes leave its key in KEY and its last word in CTRL. -/
theorem storeWords_setkey (key : List Byte) (v : Word) {s : State} (hs : s.busy = false) :
    ∃ k, KeyHolds key k ∧ storeWords (keyWords key ++ [(.ctrl, v)]) s = { s with key := k, ctrl := v &&& ctrlMask } := by
  obtain ⟨k, hk, hget⟩ := storeWords_key (fun i => packWord fun r => key.getD (4 * i.val + r.val) 0)
    (([0, 1, 2, 3, 4, 5, 6, 7] : List (Fin 8)).filter fun i => 4 * i.val < key.length) hs
  refine ⟨k, fun j hj => ?_, ?_⟩
  · have hall : ∀ j : Fin 8, j ∈ ([0, 1, 2, 3, 4, 5, 6, 7] : List (Fin 8)) := by decide
    rw [hget j, if_pos (List.mem_filter.mpr ⟨hall j, decide_eq_true hj⟩)]
  · have hkey : storeWords (keyWords key) s = { s with key := k } := hk
    rw [storeWords_append, hkey]
    exact hostWrite_idle (s := { s with key := k }) hs rfl v

/-- The command of a call is its meaning on a state with the call's key in KEY and its last word in CTRL. -/
theorem runCommand_setkey {i : Instr} (hi : i.wf = true) (key : List Byte) (v : Word) {s : State} (hs : s.busy = false) :
    ∃ u : State, runCommand i (storeWords (keyWords key ++ [(.ctrl, v)]) s) = exec i u
      ∧ u.ctrl = v &&& ctrlMask ∧ KeyHolds key u.key := by
  obtain ⟨k, hk, hstore⟩ := storeWords_setkey key v hs
  rw [hstore]
  exact ⟨_, runCommand_eq_exec hi hs, rfl, hk⟩

/-! ## AES_SETKEY -/

/-- The KLEN field that a length leaves in CTRL is the length modulo 64 (spec/10_state.md R23). -/
theorem klen_of_length {s : State} {n : Nat} (h : s.ctrl = BitVec.ofNat 32 n &&& ctrlMask) : (klen s).toNat = n % 64 := by
  have hmask : ctrlMask.extractLsb' 0 6 = BitVec.allOnes 6 := by decide
  rw [klen, h, BitVec.extractLsb'_and, hmask, BitVec.and_allOnes, BitVec.extractLsb'_toNat, BitVec.toNat_ofNat]
  omega

/-- The words of a key's first `n` groups of four bytes, each packed from its own bytes. -/
theorem bytesToWords_take (n : Nat) (key : List Byte) (h : 4 * n ≤ key.length) :
    bytesToWords (key.take (4 * n)) = (List.range n).map fun i => packWord fun r => key.getD (4 * i + r.val) 0 := by
  induction n generalizing key with
  | zero => simp [bytesToWords]
  | succ n ih =>
    match key, h with
    | a :: b :: c :: d :: rest, h =>
      have hrest : 4 * n ≤ rest.length := by simp at h; omega
      rw [show 4 * (n + 1) = 4 * n + 4 by omega, List.range_succ_eq_map]
      simp [bytesToWords, ih rest hrest, packWord, Nat.mul_add]

/-- The key words AES_KEXP reads are those of the key that KEY holds. -/
theorem aesKeyWords_of_keyHolds {s : State} {key : List Byte} {nk : Nat} (hnk : nk ≤ 8) (hlen : 4 * nk ≤ key.length)
    (hkey : KeyHolds key s.key) : aesKeyWords s nk = bytesToWords (key.take (4 * nk)) := by
  rw [bytesToWords_take nk key hlen]
  refine List.ext_getElem (by simp [aesKeyWords, hnk]) fun i hi _ => ?_
  have hlt : i < nk := (List.length_take_le nk s.key.toList).trans_lt' hi
  simpa [aesKeyWords] using hkey ⟨i, by omega⟩ (show 4 * i < key.length by omega)

/-- The parameters of the three key lengths, and the number of words in each (spec/42_aes_key_schedule.md R173). -/
theorem aesParams_of_mem {lk nk nr : Nat} (h : (lk, nk, nr) ∈ [(16, 4, 10), (24, 6, 12), (32, 8, 14)]) :
    aesParams lk = some (nk, nr) ∧ lk = 4 * nk ∧ nk ≤ 8 := by
  simp only [List.mem_cons, Prod.mk.injEq, List.not_mem_nil, or_false] at h
  obtain ⟨rfl, rfl, rfl⟩ | ⟨rfl, rfl, rfl⟩ | ⟨rfl, rfl, rfl⟩ := h <;> decide

theorem aesParams_eq_none {lk : Nat} (h16 : lk ≠ 16) (h24 : lk ≠ 24) (h32 : lk ≠ 32) : aesParams lk = none := by
  unfold aesParams
  split
  · exact absurd rfl h16
  · exact absurd rfl h24
  · exact absurd rfl h32
  · rfl

/-- AES_SETKEY of a supported length leaves the expansion of its key. -/
theorem hostAesSetkey_ok {key : List Byte} {nk nr : Nat} {s : State} (hs : s.busy = false)
    (h : (key.length % 64, nk, nr) ∈ [(16, 4, 10), (24, 6, 12), (32, 8, 14)]) :
    ∃ t, hostAesSetkey key s = .ok t ∧ t.akv = true ∧ t.nr = BitVec.ofNat 4 nr
      ∧ t.ctrl = BitVec.ofNat 32 key.length &&& ctrlMask
      ∧ t.w = padTo 60 0 (keyExpansion nk nr (bytesToWords (key.take (key.length % 64)))) := by
  obtain ⟨hp, hlen, hnk⟩ := aesParams_of_mem h
  obtain ⟨u, hu, hctrl, hkey⟩ := runCommand_setkey (i := .aesKexp) rfl key (BitVec.ofNat 32 key.length) hs
  have hwords : aesKeyWords u nk = bytesToWords (key.take (key.length % 64)) :=
    hlen ▸ aesKeyWords_of_keyHolds hnk (hlen ▸ Nat.mod_le _ _) hkey
  rw [exec_aesKexp_ok ((congrArg aesParams (klen_of_length hctrl)).trans hp), hwords] at hu
  exact ⟨_, runChecked_of_finished hu, rfl, rfl, hctrl, rfl⟩

/-- AES_SETKEY of any other length reports KEY_LENGTH. -/
theorem hostAesSetkey_error {key : List Byte} {s : State} (hs : s.busy = false) (h : aesParams (key.length % 64) = none) :
    hostAesSetkey key s = .error (.command 1) := by
  obtain ⟨u, hu, hctrl, -⟩ := runCommand_setkey (i := .aesKexp) rfl key (BitVec.ofNat 32 key.length) hs
  rw [exec_aesKexp_bad ((congrArg aesParams (klen_of_length hctrl)).trans h)] at hu
  exact runChecked_of_failed (by decide) hu

/-! ## DES_SETKEY -/

/-- The word DES_SETKEY writes to CTRL shows KLEN 8 and the method (spec/10_state.md R23). -/
theorem klen_dstrat_of_desCtrl {s : State} {method : BitVec 2}
    (h : s.ctrl = (8 ||| (method.setWidth 32 <<< 8)) &&& ctrlMask) : klen s = 8 ∧ dstrat s = method := by
  have hfields : ∀ m : BitVec 2, ((8 ||| (m.setWidth 32 <<< 8) : Word) &&& ctrlMask).extractLsb' 0 6 = 8
      ∧ ((8 ||| (m.setWidth 32 <<< 8) : Word) &&& ctrlMask).extractLsb' 8 2 = m := by decide
  rw [klen, dstrat, h]
  exact hfields method

/-- Bytes appended to `x` in one group are appended one after the other. -/
theorem append_packed {n : Nat} (x : BitVec n) (a b c d : Byte) : x ++ (a ++ b ++ c ++ d) = x ++ a ++ b ++ c ++ d := by
  apply BitVec.eq_of_toNat_eq
  simp only [BitVec.toNat_append, Nat.shiftLeft_or_distrib, ← Nat.shiftLeft_add, Nat.or_assoc]

theorem desKey_of_keyHolds {s : State} {key : Vector Byte 8} (h : KeyHolds key.toList s.key) :
    desKey s = key[0] ++ key[1] ++ key[2] ++ key[3] ++ key[4] ++ key[5] ++ key[6] ++ key[7] := by
  have h0 : s.key[0] = key[0] ++ key[1] ++ key[2] ++ key[3] := by simpa [packWord] using h 0 (by simp)
  have h1 : s.key[1] = key[4] ++ key[5] ++ key[6] ++ key[7] := by simpa [packWord] using h 1 (by simp)
  rw [desKey, h0, h1]
  exact append_packed _ _ _ _ _

/-- There is a subkey for each rotation amount. -/
theorem subkeysFrom_length (amounts : List Nat) (c d : Half28) : (subkeysFrom amounts c d).length = amounts.length := by
  induction amounts generalizing c d with
  | nil => rfl
  | cons n rest ih => simp [subkeysFrom, ih]

/-- A list that fills the memory is the memory. -/
theorem padTo_toList {α : Type} {n : Nat} (d : α) {l : List α} (h : l.length = n) : (padTo n d l).toList = l := by
  simp [padTo, Vector.toList, ← h]

/-- DES_SETKEY with a method that exists leaves the schedule of its key under that method. -/
theorem hostDesSetkey_ok (key : Vector Byte 8) {method : BitVec 2} (hm : method ≠ 3) {s : State} (hs : s.busy = false) :
    ∃ t, hostDesSetkey key method s = .ok t ∧ t.dkv = true ∧ t.dstratL = method
      ∧ t.dk.toList = desKeySchedule
          (key[0] ++ key[1] ++ key[2] ++ key[3] ++ key[4] ++ key[5] ++ key[6] ++ key[7]) := by
  obtain ⟨u, hu, hctrl, hkey⟩ :=
    runCommand_setkey (i := .desKexp) rfl key.toList (8 ||| (method.setWidth 32 <<< 8)) hs
  obtain ⟨hklen, hstrat⟩ := klen_dstrat_of_desCtrl hctrl
  rw [exec_desKexp, if_neg (not_not.mpr hklen), if_neg (hstrat ▸ hm), desKey_of_keyHolds hkey] at hu
  exact ⟨_, runChecked_of_finished hu, rfl, hstrat, padTo_toList _ (subkeysFrom_length _ _ _)⟩

/-- DES_SETKEY with method 3 reports UNSUPPORTED_MODE. -/
theorem hostDesSetkey_error (key : Vector Byte 8) {s : State} (hs : s.busy = false) :
    hostDesSetkey key 3 s = .error (.command 2) := by
  obtain ⟨u, hu, hctrl, -⟩ := runCommand_setkey (i := .desKexp) rfl key.toList (8 ||| ((3 : BitVec 2).setWidth 32 <<< 8)) hs
  obtain ⟨hklen, hstrat⟩ := klen_dstrat_of_desCtrl hctrl
  rw [exec_desKexp, if_neg (not_not.mpr hklen), if_pos hstrat] at hu
  exact runChecked_of_failed (by decide) hu

/-- Settles O60: a call's command finds its key in KEY and its length or method in CTRL. -/
theorem setkeyExpandsTheKeyOrReportsItsError : Obligations.SetkeyExpandsTheKeyOrReportsItsError := by
  intro s hs
  exact ⟨fun key nk nr h => hostAesSetkey_ok hs h,
    fun key h16 h24 h32 => hostAesSetkey_error hs (aesParams_eq_none h16 h24 h32),
    fun key method hm => hostDesSetkey_ok key hm hs, fun key => hostDesSetkey_error key hs⟩

end Sys2Proof.Machine
end

section
/-! The GF(2^8) multiplier: doubling as a number, the product term by term, and the laws of a field (spec/40_gf.md R120 to
R123). The multiplier is additive in each byte and xtime passes through it, and every byte comes from 1 by doubling and
XOR; the laws follow by induction along that. -/

namespace Sys2Proof.Machine

/-! ## Terms -/

/-- The term of a sum that a bit selects: `a` when the bit is set, nothing otherwise. -/
def bitTerm (c : Bool) (a : Byte) : Byte := if c then a else 0

@[simp] theorem bitTerm_true (a : Byte) : bitTerm true a = a := rfl
@[simp] theorem bitTerm_false (a : Byte) : bitTerm false a = 0#8 := rfl

theorem bitTerm_xor (c : Bool) (a a' : Byte) : bitTerm c (a ^^^ a') = bitTerm c a ^^^ bitTerm c a' := by
  cases c <;> simp

theorem xor_bitTerm (c c' : Bool) (a : Byte) : bitTerm (c ^^ c') a = bitTerm c a ^^^ bitTerm c' a := by
  cases c <;> cases c' <;> simp

theorem xtime_eq (a : Byte) : xtime a = a <<< 1 ^^^ bitTerm (a.getLsbD 7) 0x1B := by
  unfold xtime
  cases a.getLsbD 7 <;> simp

theorem mulSteps_succ (n : Nat) (a b p : Byte) :
    mulSteps (n + 1) a b p = mulSteps n (xtime a) (b >>> 1) (p ^^^ bitTerm (b.getLsbD 0) a) := by
  rw [mulSteps]
  cases b.getLsbD 0 <;> simp

theorem xtime_xor (a b : Byte) : xtime (a ^^^ b) = xtime a ^^^ xtime b := by
  simp only [xtime_eq, BitVec.shiftLeft_xor_distrib, BitVec.getLsbD_xor, xor_bitTerm]
  ac_rfl

@[simp] theorem xtime_zero : xtime 0#8 = 0#8 := rfl

theorem xtime_bitTerm (c : Bool) (a : Byte) : xtime (bitTerm c a) = bitTerm c (xtime a) := by
  cases c <;> simp

/-! ## Doubling -/

/-- As a number the doubled byte is twice the byte, reduced by 0x11B when it reaches 256. -/
theorem xtime_toNat (a : Byte) :
    (xtime a).toNat = if a.toNat < 128 then 2 * a.toNat else (2 * a.toNat) ^^^ 0x11B := by
  have htop : a.getLsbD 7 = decide (128 ≤ a.toNat) := BitVec.msb_eq_decide a
  have hshift : (a <<< 1).toNat = 2 * a.toNat % 2 ^ 8 := by simp [Nat.shiftLeft_eq, Nat.mul_comm]
  by_cases h : a.toNat < 128
  · rw [if_pos h, xtime_eq, htop, decide_eq_false (by omega), bitTerm_false, BitVec.xor_zero, hshift]
    omega
  · have hhigh : 2 * a.toNat / 2 ^ 8 = 1 := by omega
    have hlow : ((2 * a.toNat) ^^^ 0x11B) % 2 ^ 8 = 2 * a.toNat % 2 ^ 8 ^^^ 0x1B := Nat.xor_mod_two_pow
    have hzero : ((2 * a.toNat) ^^^ 0x11B) / 2 ^ 8 = 0 := by rw [Nat.xor_div_two_pow, hhigh]; rfl
    have hlt : ((2 * a.toNat) ^^^ 0x11B) < 2 ^ 8 := (Nat.div_eq_zero_iff_lt (by decide)).mp hzero
    rw [if_neg h, xtime_eq, htop, decide_eq_true (by omega), bitTerm_true, BitVec.toNat_xor, hshift,
      ← Nat.mod_eq_of_lt hlt, hlow]
    rfl

theorem opaA_toNat (s : State) : (opaA s).toNat = s.opa.toNat % 256 := BitVec.extractLsb'_toNat 0 8 s.opa

/-- Settles O8: the byte is `xtime` of OPA's low byte, read as a number. -/
theorem gfXtimeDoublesModulo11B : Obligations.GfXtimeDoublesModulo11B := fun s =>
  ⟨xtime (opaA s), exec_gfXtime s, opaA_toNat s ▸ xtime_toNat (opaA s)⟩

/-! ## The product term by term -/

/-- The loop adds `a·x^i` to the product for each bit i of `b` it has gone past. -/
theorem mulSteps_eq_foldl (n : Nat) (a b p : Byte) :
    mulSteps n a b p = (List.range n).foldl (fun p i => if b.getLsbD i then p ^^^ xtime^[i] a else p) p := by
  induction n generalizing a b p with
  | zero => rfl
  | succ n ih => simp [mulSteps, ih, List.range_succ_eq_map, List.foldl_map, Nat.add_comm]

theorem mul_eq_fieldProduct (a b : Byte) : mul a b = fieldProduct a b := mulSteps_eq_foldl 8 a b 0

/-- Settles O9: the shift-and-add loop is the sum of its terms. -/
theorem gfMulIsTheFieldProduct : Obligations.GfMulIsTheFieldProduct := fun s => by
  rw [← mul_eq_fieldProduct]
  exact exec_gfMul s

/-! ## The loop is additive -/

theorem mulSteps_xor_left (n : Nat) (a a' b p p' : Byte) :
    mulSteps n (a ^^^ a') b (p ^^^ p') = mulSteps n a b p ^^^ mulSteps n a' b p' := by
  induction n generalizing a a' b p p' with
  | zero => rfl
  | succ n ih =>
    simp only [mulSteps_succ, ← ih, xtime_xor, bitTerm_xor]
    ac_rfl

theorem mulSteps_xor_right (n : Nat) (a b b' p p' : Byte) :
    mulSteps n a (b ^^^ b') (p ^^^ p') = mulSteps n a b p ^^^ mulSteps n a b' p' := by
  induction n generalizing a b b' p p' with
  | zero => rfl
  | succ n ih =>
    simp only [mulSteps_succ, ← ih, BitVec.ushiftRight_xor_distrib, BitVec.getLsbD_xor, xor_bitTerm]
    ac_rfl

/-- Doubling passes through the loop. -/
theorem mulSteps_xtime (n : Nat) (a b p : Byte) : mulSteps n (xtime a) b (xtime p) = xtime (mulSteps n a b p) := by
  induction n generalizing a b p with
  | zero => rfl
  | succ n ih => simp only [mulSteps_succ, ← ih, xtime_xor, xtime_bitTerm]

theorem xor_gfMul (a a' b : Byte) : mul (a ^^^ a') b = mul a b ^^^ mul a' b := mulSteps_xor_left 8 a a' b 0 0

theorem gfMul_xor (a b b' : Byte) : mul a (b ^^^ b') = mul a b ^^^ mul a b' := mulSteps_xor_right 8 a b b' 0 0

theorem xtime_gfMul (a b : Byte) : mul (xtime a) b = xtime (mul a b) := mulSteps_xtime 8 a b 0

@[simp] theorem zero_gfMul (b : Byte) : mul 0#8 b = 0#8 := by simpa using xor_gfMul 0 0 b

/-- The doublings of 1 that the loop adds are the bits of `b` themselves; computed for each of the 256 bytes. -/
@[simp] theorem one_gfMul : ∀ b : Byte, mul 1#8 b = b := by decide +kernel

/-! ## The laws of a field (spec/40_gf.md R123) -/

/-- What holds of the multiplicand and of the product so far, and is kept by XOR and doubling, holds of the loop's result. -/
theorem mulSteps_induction {P : Byte → Prop} (xor : ∀ a b, P a → P b → P (a ^^^ b)) (double : ∀ a, P a → P (xtime a))
    (n : Nat) {a p : Byte} (b : Byte) (ha : P a) (hp : P p) : P (mulSteps n a b p) := by
  induction n generalizing a b p with
  | zero => exact hp
  | succ n ih =>
    refine ih _ (double a ha) ?_
    split
    · exact xor p a hp ha
    · exact hp

/-- Every byte is a sum of doublings of 1: it is its own product with 1. -/
theorem byte_induction {P : Byte → Prop} (zero : P 0) (one : P 1) (xor : ∀ a b, P a → P b → P (a ^^^ b))
    (double : ∀ a, P a → P (xtime a)) (b : Byte) : P b :=
  one_gfMul b ▸ mulSteps_induction xor double 8 b one zero

theorem gfMul_xtime (a b : Byte) : mul a (xtime b) = xtime (mul a b) := by
  induction a using byte_induction with
  | zero => simp
  | one => simp
  | xor a a' h h' => simp only [xor_gfMul, h, h', xtime_xor]
  | double a h => simp only [xtime_gfMul, h]

@[simp] theorem gfMul_zero (a : Byte) : mul a 0#8 = 0#8 := by simpa using gfMul_xor a 0 0

@[simp] theorem gfMul_one (a : Byte) : mul a 1#8 = a := by
  induction a using byte_induction with
  | zero => simp
  | one => simp
  | xor a a' h h' => rw [xor_gfMul, h, h']
  | double a h => rw [xtime_gfMul, h]

theorem gfMul_two (a : Byte) : mul a 2 = xtime a := (gfMul_xtime a 1).trans (congrArg xtime (gfMul_one a))

theorem gfMul_comm (a b : Byte) : mul a b = mul b a := by
  induction a using byte_induction with
  | zero => simp
  | one => simp
  | xor a a' h h' => rw [xor_gfMul, gfMul_xor, h, h']
  | double a h => rw [xtime_gfMul, gfMul_xtime, h]

theorem gfMul_assoc (a b c : Byte) : mul (mul a b) c = mul a (mul b c) := by
  induction a using byte_induction with
  | zero => simp
  | one => simp
  | xor a a' h h' => simp only [xor_gfMul, h, h']
  | double a h => simp only [xtime_gfMul, h]

/-! ## Inverses

Every byte but 0 is a power of 3, and the 255th power is 1. That takes more than the laws above: it rests on 0x11B. -/

theorem mul3_gfMul (a b : Byte) : mul (mul3 a) b = mul3 (mul a b) := by simp only [mul3, xor_gfMul, xtime_gfMul]

theorem mul3_period : mul3^[255] 1 = 1 := by decide +kernel

/-- No proper divisor of 255 is a period, so 255 is the least. -/
theorem mul3_minimalPeriod : Function.minimalPeriod mul3 1 = 255 := by
  have hdvd : Function.minimalPeriod mul3 1 ∣ 255 := Function.IsPeriodicPt.minimalPeriod_dvd mul3_period
  have hproper : ∀ d ∈ Nat.properDivisors 255, mul3^[d] 1 ≠ 1 := by decide +kernel
  by_contra hne
  have hlt := lt_of_le_of_ne (Nat.le_of_dvd (by decide) hdvd) hne
  exact hproper _ (Nat.mem_properDivisors.mpr ⟨hdvd, hlt⟩) (Function.isPeriodicPt_minimalPeriod mul3 1)

/-- 0 is no power of 3: it would stay 0 up to the 255th. -/
theorem mul3_iterate_ne_zero {i : Nat} (hi : i < 255) : mul3^[i] 1 ≠ 0 := fun h => by
  have hzero : mul3^[255 - i] 0 = 0 := Function.iterate_fixed rfl _
  rw [← h, ← Function.iterate_add_apply, Nat.sub_add_cancel hi.le, mul3_period, h] at hzero
  exact absurd hzero (by decide)

/-- The first 255 powers of 3 are distinct, so they are the 255 bytes other than 0. -/
theorem exists_mul3_iterate {a : Byte} (ha : a ≠ 0) : ∃ i < 255, mul3^[i] 1 = a := by
  have hinj : Set.InjOn (fun i => mul3^[i] 1) (Finset.range 255) := by
    rw [Finset.coe_range, ← mul3_minimalPeriod]
    exact Function.iterate_injOn_Iio_minimalPeriod
  have hmaps : ∀ i ∈ Finset.range 255, mul3^[i] 1 ∈ Finset.univ.erase (0 : Byte) := fun i hi =>
    Finset.mem_erase.mpr ⟨mul3_iterate_ne_zero (Finset.mem_range.mp hi), Finset.mem_univ _⟩
  have hsurj := Finset.surjOn_of_injOn_of_card_le _ hmaps hinj (by simp [← FinEnum.card_eq_fintypeCard])
  obtain ⟨i, hi, h⟩ := hsurj (Finset.mem_erase.mpr ⟨ha, Finset.mem_univ _⟩)
  exact ⟨i, Finset.mem_range.mp hi, h⟩

/-- The inverse of the power `3^i` is `3^(255 - i)`. -/
theorem exists_gfMul_eq_one {a : Byte} (ha : a ≠ 0) : ∃ b, mul a b = 1 := by
  obtain ⟨i, hi, rfl⟩ := exists_mul3_iterate ha
  have hpass : Function.Semiconj (mul · (mul3^[255 - i] 1)) mul3 mul3 := fun a => mul3_gfMul a _
  refine ⟨mul3^[255 - i] 1, ?_⟩
  calc mul (mul3^[i] 1) (mul3^[255 - i] 1)
      = mul3^[i] (mul 1 (mul3^[255 - i] 1)) := hpass.iterate_right i 1
    _ = mul3^[i] (mul3^[255 - i] 1) := congrArg _ (one_gfMul _)
    _ = 1 := by rw [← Function.iterate_add_apply, Nat.add_sub_cancel' hi.le, mul3_period]

theorem eq_of_gfMul_eq_one {a b b' : Byte} (h : mul a b = 1) (h' : mul a b' = 1) : b' = b :=
  calc b' = mul (mul a b) b' := by simp [h]
    _ = mul b (mul a b') := by rw [gfMul_comm a b, gfMul_assoc]
    _ = b := by simp [h']

/-- Settles O10: the laws above, with the inverse of a byte as a power of 3. -/
theorem mulObeysTheFieldLaws : Obligations.MulObeysTheFieldLaws :=
  ⟨gfMul_comm, gfMul_zero, gfMul_one, gfMul_two, gfMul_xor, gfMul_assoc,
    fun _ ha => (exists_gfMul_eq_one ha).imp fun _ h => ⟨h, fun _ => eq_of_gfMul_eq_one h⟩⟩

end Sys2Proof.Machine
end

section
/-! The constant tables: what ROM_READ finds below each table's length, and the AES tables as their rules construct them
(spec/41_rom_tables.md R140 to R144, R152, R153). -/

namespace Sys2Proof.Machine

/-! ## Lengths and entries -/

theorem romSize_of_mem_romCounts : ∀ p ∈ romCounts, romSize (BitVec.ofNat 4 p.1) = some p.2 := by decide

/-- The ROMs whose entries are those of a list the transforms read (TBL 3 to 9). -/
def listRoms : List (Nat × List Nat) :=
  [(3, desIpTable), (4, desFpTable), (5, desPc1Table), (6, desPc2Table), (7, desETable), (8, desPTable), (9, desShifts)]

theorem listRoms_mem_romCounts : ∀ p ∈ listRoms, (p.1, p.2.length) ∈ romCounts := by decide

theorem romEntry_listRoms (i : Nat) : ∀ p ∈ listRoms, romEntry (BitVec.ofNat 4 p.1) i = p.2.getD i 0 := by
  simp only [listRoms, List.forall_mem_cons]
  exact ⟨rfl, rfl, rfl, rfl, rfl, rfl, rfl, nofun⟩

/-- An entry of a list of `w`-bit numbers loses nothing when it is read as a `w`-bit word. -/
theorem setWidth_ofNat_getD {w : Nat} {l : List Nat} (hl : ∀ n ∈ l, n < 2 ^ w) (i : Nat) :
    (BitVec.ofNat w (l.getD i 0)).setWidth 32 = BitVec.ofNat 32 (l.getD i 0) := by
  have hlt : l.getD i 0 < 2 ^ w := by
    by_cases hi : i < l.length
    · rw [List.getD_eq_getElem _ _ hi]
      exact hl _ (List.getElem_mem hi)
    · rw [List.getD_eq_default _ _ (Nat.not_lt.mp hi)]
      exact Nat.two_pow_pos w
  rw [← BitVec.toNat_inj, BitVec.toNat_setWidth, BitVec.toNat_ofNat, BitVec.toNat_ofNat, Nat.mod_eq_of_lt hlt]

/-- Lists of one length `n`, one after another, hold entry `k` of list `i` at `n * i + k`. -/
theorem getD_flatten {n k : Nat} (hk : k < n) (ls : List (List Nat)) (hls : ∀ l ∈ ls, l.length = n) (i : Nat) :
    ls.flatten.getD (n * i + k) 0 = (ls.getD i []).getD k 0 := by
  induction ls generalizing i with
  | nil => simp
  | cons l ls ih =>
    obtain ⟨hl, hls⟩ := List.forall_mem_cons.mp hls
    cases i with
    | zero => simpa using List.getD_append l ls.flatten 0 k (hl ▸ hk)
    | succ i =>
      have hsub : n * (i + 1) + k - l.length = n * i + k := by rw [hl, Nat.mul_succ]; omega
      rw [List.flatten_cons, List.getD_append_right _ _ _ _ (by rw [hl, Nat.mul_succ]; omega), hsub, ih hls]
      rfl

/-- The eight S-boxes in the order of R152. -/
def desSboxes : List (List Nat) := [desS1, desS2, desS3, desS4, desS5, desS6, desS7, desS8]

theorem desSboxTable_getD (i : Nat) {row col : Nat} (hr : row < 4) (hc : col < 16) :
    desSboxTable.getD (64 * i + 16 * row + col) 0 = (desSboxes.getD i []).getD (16 * row + col) 0 := by
  have hflatten : desSboxTable = desSboxes.flatten := by simp [desSboxTable, desSboxes]
  rw [hflatten, Nat.add_assoc]
  exact getD_flatten (by omega) desSboxes (by decide) i

/-- Every entry of DES_SBOX has four bits, so reading S-box i as a nibble loses nothing. -/
theorem desSbox_setWidth (i : Nat) {row col : Nat} (hr : row < 4) (hc : col < 16) :
    (desSbox i row col).setWidth 32 = BitVec.ofNat 32 (desSboxTable.getD (64 * i + 16 * row + col) 0) := by
  have hbits : ∀ n ∈ desSboxTable, n < 2 ^ 4 := by decide +kernel
  rw [← setWidth_ofNat_getD hbits, desSboxTable_getD i hr hc]
  rfl

theorem rcon_setWidth (j : Nat) : (rcon j).setWidth 32 = BitVec.ofNat 32 (aesRcon.getD j 0) :=
  setWidth_ofNat_getD (by decide) j

/-! ## ROM_READ -/

/-- `exec_romRead_ok` with the entry under another name. -/
theorem exec_romRead_entry {s : State} {tbl : BitVec 4} {idx : BitVec 9} {n : Nat} {v : Word}
    (h : romSize tbl = some n) (hi : idx.toNat < n) (hv : BitVec.ofNat 32 (romEntry tbl idx.toNat) = v) :
    exec (.romRead tbl idx) s = .next (finished { s with res := v }) := hv ▸ exec_romRead_ok h hi

/-- The two ROMs of 256 entries are indexed by a byte. -/
theorem exec_romRead_byte {tbl : BitVec 4} {f : Byte → Byte} (h : romSize tbl = some 256)
    (hf : ∀ i, romEntry tbl i = (f (BitVec.ofNat 8 i)).toNat) (x : Byte) (s : State) :
    exec (.romRead tbl (x.setWidth 9)) s = .next (finished { s with res := (f x).setWidth 32 }) := by
  have hidx : (x.setWidth 9).toNat = x.toNat := BitVec.toNat_setWidth_of_le (by decide)
  exact exec_romRead_entry h (hidx ▸ x.isLt) (by simp [hidx, hf])

theorem exec_romRead_desSbox {i row col : Nat} (hi : i < 8) (hr : row < 4) (hc : col < 16) (s : State) :
    exec (.romRead 10 (BitVec.ofNat 9 (64 * i + 16 * row + col))) s
      = .next (finished { s with res := (desSbox i row col).setWidth 32 }) := by
  have hlt : 64 * i + 16 * row + col < 512 := by omega
  have hidx : (BitVec.ofNat 9 (64 * i + 16 * row + col)).toNat = 64 * i + 16 * row + col := Nat.mod_eq_of_lt hlt
  refine exec_romRead_entry (n := 512) rfl (hidx.symm ▸ hlt) ?_
  rw [hidx, desSbox_setWidth i hr hc]
  rfl

theorem exec_romRead_listRoms {p : Nat × List Nat} (hp : p ∈ listRoms) {j : BitVec 9} (hj : j.toNat < p.2.length)
    (s : State) :
    exec (.romRead (BitVec.ofNat 4 p.1) j) s
      = .next (finished { s with res := BitVec.ofNat 32 (p.2.getD j.toNat 0) }) :=
  exec_romRead_entry (romSize_of_mem_romCounts _ (listRoms_mem_romCounts p hp)) hj (by rw [romEntry_listRoms _ p hp])

/-- Settles O11: table by table, the entry ROM_READ finds is the one the transforms read. -/
theorem romReadReturnsTheEntry : Obligations.RomReadReturnsTheEntry := fun s =>
  ⟨fun x => ⟨exec_romRead_byte rfl (fun _ => rfl) x s, exec_romRead_byte rfl (fun _ => rfl) x s⟩,
    fun j hj => exec_romRead_entry (n := 11) rfl hj (rcon_setWidth j.toNat).symm,
    fun p hp => ⟨listRoms_mem_romCounts p hp, fun _ hj => exec_romRead_listRoms hp hj s⟩,
    fun _ _ _ hi hr hc => exec_romRead_desSbox hi hr hc s⟩

/-! ## The AES tables -/

/-- The affine map of R142. -/
def sboxAffine (b : Byte) : Byte :=
  b ^^^ b.rotateLeft 1 ^^^ b.rotateLeft 2 ^^^ b.rotateLeft 3 ^^^ b.rotateLeft 4 ^^^ 0x63

/-- The map that undoes `sboxAffine`. -/
def sboxAffineInv (y : Byte) : Byte := y.rotateLeft 1 ^^^ y.rotateLeft 3 ^^^ y.rotateLeft 6 ^^^ 0x05

theorem sboxAffine_sboxAffineInv : ∀ y, sboxAffine (sboxAffineInv y) = y := by decide +kernel

/-- With the affine map undone, the S-box entry of a byte is the byte's inverse in the field. -/
theorem gfMul_sboxAffineInv_sbox : ∀ x, x ≠ 0 → mul x (sboxAffineInv (sbox x)) = 0x01 := by decide +kernel

theorem sboxAffineInv_sbox_zero : sboxAffineInv (sbox 0) = 0 := by decide

theorem invSbox_sbox : Function.LeftInverse invSbox sbox := by unfold Function.LeftInverse; decide +kernel

/-- The S-box is injective, hence onto the bytes, so its left inverse is its right inverse too. -/
theorem sbox_invSbox : Function.RightInverse invSbox sbox :=
  invSbox_sbox.rightInverse_of_surjective (Finite.surjective_of_injective invSbox_sbox.injective)

theorem rcon_succ_eq_iterate : ∀ i < 10, rcon (i + 1) = xtime^[i] 0x01 := by decide

/-- Settles O12: the inverse of a byte is read off its S-box entry by undoing the affine map. -/
theorem aesTablesAreTheirConstructions : Obligations.AesTablesAreTheirConstructions := by
  refine ⟨fun x => ⟨sboxAffineInv (sbox x), ?_, gfMul_sboxAffineInv_sbox x, (sboxAffine_sboxAffineInv (sbox x)).symm⟩,
    invSbox_sbox, sbox_invSbox, fun j hpos hle => ?_⟩
  · rintro rfl
    exact sboxAffineInv_sbox_zero
  · have h := rcon_succ_eq_iterate (j - 1) (by omega)
    rwa [Nat.sub_add_cancel hpos] at h

end Sys2Proof.Machine
end

section
/-! The AES key schedule: the recurrence word by word, the memory that AES_KEXP writes it to, and RotWord and SubWord byte
by byte (spec/42_aes_key_schedule.md R170, R171, R174, R176). -/

namespace Sys2Proof.Machine

/-! ## The recurrence -/

theorem expandWords_getD_of_lt (nk n : Nat) {ws : List Word} {i : Nat} (hi : i < ws.length) :
    (expandWords nk n ws).getD i 0 = ws.getD i 0 := by
  induction n generalizing ws with
  | zero => rfl
  | succ n ih =>
    rw [expandWords, ih (by simp; omega)]
    exact List.getD_append _ _ _ _ hi

/-- R174 for a word the expansion adds, read in the finished list: the words it is computed from are no longer changed. -/
theorem expandWords_getD {nk n : Nat} (hpos : 0 < nk) {ws : List Word} (hnk : nk ≤ ws.length) {i : Nat}
    (hlo : ws.length ≤ i) (hhi : i < ws.length + n) :
    (expandWords nk n ws).getD i 0 = (expandWords nk n ws).getD (i - nk) 0
      ^^^ expandTemp nk i ((expandWords nk n ws).getD (i - 1) 0) := by
  induction n generalizing ws with
  | zero => omega
  | succ n ih =>
    obtain rfl | hlt := hlo.eq_or_lt
    · rw [expandWords_getD_of_lt nk (n + 1) (i := ws.length - nk) (by omega),
        expandWords_getD_of_lt nk (n + 1) (i := ws.length - 1) (by omega), expandWords,
        expandWords_getD_of_lt nk n (i := ws.length) (by simp)]
      simp
    · exact ih (by simp; omega) (by simpa using hlt) (by simp; omega)

/-! ## AES_KEXP -/

theorem aesKeyWords_length (s : State) {nk : Nat} (hnk : nk ≤ 8) : (aesKeyWords s nk).length = nk := by
  simp [aesKeyWords, hnk]

theorem aesKeyWords_getD (s : State) {nk i : Nat} (hi : i < nk) : (aesKeyWords s nk).getD i 0 = s.key.toList.getD i 0 := by
  simp [aesKeyWords, List.getD_eq_getElem?_getD, List.getElem?_take_of_lt hi]

/-- A list that fits in W is read back from it, with zeros beyond its end. -/
theorem wordOf_padTo {l : List Word} (hl : l.length ≤ 60) (i : Nat) : wordOf (padTo 60 0 l) i = l.getD i 0 := by
  by_cases hi : i < 60
  · rw [← padTo_get 60 0 l i hi]
    simp [wordOf, hi]
  · rw [List.getD_eq_default _ _ (by omega)]
    exact List.getD_eq_default _ _ (by simpa using hi)

/-- Settles O14: W is the expanded list padded to 60 words, and the list keeps the key's words and obeys the recurrence. -/
theorem aesKexpFollowsTheRecurrence : Obligations.AesKexpFollowsTheRecurrence := by
  intro s nk nr hmem
  obtain ⟨hp, -, hnk⟩ := aesParams_of_mem hmem
  have hcases := aesParams_cases hp
  have hkey := aesKeyWords_length s hnk
  have hlen := keyExpansion_length hp s
  have hw := wordOf_padTo (l := keyExpansion nk nr (aesKeyWords s nk)) (by omega)
  refine ⟨_, exec_aesKexp_ok hp, fun i hi => ?_, fun i hlo hhi => ?_, fun i hi => ?_⟩
  · rw [hw, keyExpansion, expandWords_getD_of_lt _ _ (by omega), aesKeyWords_getD s hi]
  · rw [hw, hw, hw]
    exact expandWords_getD (by omega) hkey.ge (by omega) (by omega)
  · rw [hw, List.getD_eq_default _ _ (by omega)]

/-! ## RotWord and SubWord -/

/-- Bits are counted here from the most significant one, as the spec's `||` lists them. -/
theorem getMsbD_byteOf (w : Word) (r : Fin 4) {i : Nat} (hi : i < 8) :
    (byteOf w r).getMsbD i = w.getMsbD (8 * r.val + i) := by
  have hpos : 24 - 8 * r.val + (8 - 1 - i) = 32 - 1 - (8 * r.val + i) := by omega
  have hlt : 8 - 1 - i < 8 := by omega
  have hlt' : 8 * r.val + i < 32 := by omega
  simp only [byteOf, BitVec.getMsbD_eq_getLsbD, BitVec.getLsbD_extractLsb', hpos, hi, hlt, hlt', decide_true,
    Bool.true_and]

/-- RotWord moves each byte one place up, and the first to the end. -/
theorem byteOf_rotWord (w : Word) (r : Fin 4) : byteOf (rotWord w) r = byteOf w (r + 1) := by
  refine BitVec.eq_of_getMsbD_eq fun i hi => ?_
  have hpos : (8 + (8 * r.val + i)) % 32 = 8 * (r + 1).val + i := by rw [Fin.val_add]; omega
  rw [getMsbD_byteOf _ _ hi, getMsbD_byteOf _ _ hi, rotWord, BitVec.getMsbD_rotateLeft, hpos,
    decide_eq_true (show 8 * r.val + i < 32 by omega), Bool.true_and]

theorem byteOf_subWord (w : Word) (r : Fin 4) : byteOf (subWord w) r = sbox (byteOf w r) := byteOf_packWord _ r

/-- Settles O15: byte `r` of RotWord is byte `r + 1` modulo 4 of OPA, and SubWord is packed from the S-box's bytes. -/
theorem rotwordAndSubwordActOnBytes : Obligations.RotwordAndSubwordActOnBytes := fun s =>
  ⟨_, _, exec_aesRotword s, exec_aesSubword s, rfl, byteOf_rotWord s.opa 0, byteOf_rotWord s.opa 1,
    byteOf_rotWord s.opa 2, byteOf_rotWord s.opa 3, byteOf_subWord s.opa⟩

end Sys2Proof.Machine
end

section
/-! The DES key schedule: rotations of one half accumulate, each subkey is read off the halves of PC1, and the parity
bits of the key reach none of them (spec/43_des_key_schedule.md R190 to R194). -/

namespace Sys2Proof.Machine

/-! ## Rotation -/

/-- Rotations add up: a rotation by `m` and then by `n` moves every position by `m + n`. -/
theorem rotateLeft_rotateLeft {w : Nat} (x : BitVec w) (m n : Nat) :
    (x.rotateLeft m).rotateLeft n = x.rotateLeft (m + n) := by
  refine BitVec.eq_of_getMsbD_eq fun i hi => ?_
  have hlt : (n + i) % w < w := Nat.mod_lt _ (by omega)
  have hpos : (m + (n + i) % w) % w = (m + n + i) % w := by rw [Nat.add_mod_mod, Nat.add_assoc]
  simp only [BitVec.getMsbD_rotateLeft, hi, hlt, hpos, decide_true, Bool.true_and]

/-- A rotation by the whole width moves nothing. -/
theorem rotateLeft_width {w : Nat} (x : BitVec w) : x.rotateLeft w = x := by
  refine BitVec.eq_of_getMsbD_eq fun i hi => ?_
  have hpos : (w + i) % w = i := by rw [Nat.add_mod_left, Nat.mod_eq_of_lt hi]
  simp only [BitVec.getMsbD_rotateLeft, hi, hpos, decide_true, Bool.true_and]

/-! ## The schedule -/

/-- Subkey `k` of the rounds with these amounts: the first halves, rotated by the first `k + 1` amounts at once. -/
theorem subkeysFrom_getD {amounts : List Nat} {k : Nat} (hk : k < amounts.length) (c d : Half28) :
    (subkeysFrom amounts c d).getD k 0
      = pc2 (c.rotateLeft (amounts.take (k + 1)).sum) (d.rotateLeft (amounts.take (k + 1)).sum) := by
  induction amounts generalizing k c d with
  | nil => simp at hk
  | cons n rest ih =>
    cases k with
    | zero => simp [subkeysFrom]
    | succ k =>
      rw [subkeysFrom, List.getD_cons_succ, ih (by simpa using hk), rotateLeft_rotateLeft, rotateLeft_rotateLeft,
        List.take_succ_cons, List.sum_cons]

theorem desKeySchedule_getD (key : Block64) {k : Nat} (hk : k < 16) :
    (desKeySchedule key).getD k 0
      = pc2 (((pc1 key).extractLsb' 28 28).rotateLeft (desShifts.take (k + 1)).sum)
          (((pc1 key).extractLsb' 0 28).rotateLeft (desShifts.take (k + 1)).sum) :=
  subkeysFrom_getD hk _ _

/-- Settles O22: DK is the schedule of the key, whose subkeys `desKeySchedule_getD` gives. -/
theorem desKexpRotatesCumulatively : Obligations.DesKexpRotatesCumulatively := by
  intro s hklen hstrat
  refine ⟨padTo 16 0 (desKeySchedule (desKey s)), ?_, fun k => ?_⟩
  · rw [exec_desKexp, if_neg (not_not.mpr hklen), if_neg hstrat]
  · rw [Fin.getElem_fin, padTo_get _ _ _ _ k.isLt]
    exact desKeySchedule_getD (desKey s) k.isLt

/-! ## The total rotation and the parity bits -/

theorem desShifts_sum : desShifts.sum = 28 := by decide

/-- After the last round both halves have gone once around. -/
theorem desKeySchedule_getD_last (key : Block64) :
    (desKeySchedule key).getD 15 0 = pc2 ((pc1 key).extractLsb' 28 28) ((pc1 key).extractLsb' 0 28) := by
  have htake : desShifts.take (15 + 1) = desShifts := rfl
  rw [desKeySchedule_getD key (by decide), htake, desShifts_sum, rotateLeft_width, rotateLeft_width]

/-- `Permute` reads its source at the positions of its table only. -/
theorem permute_congr {m n : Nat} {table : List Nat} {x y : BitVec n}
    (h : ∀ p ∈ table, x.getMsbD (p - 1) = y.getMsbD (p - 1)) : permute m table x = permute m table y :=
  congrArg (BitVec.ofNat m) (List.foldl_ext _ _ 0 fun acc p hp => by rw [h p hp])

/-- PC1 names no parity position: counted from 0 these are 7, 15, ..., 63. -/
theorem desPc1Table_off_parity : ∀ p ∈ desPc1Table, p - 1 < 64 ∧ (p - 1) % 8 ≠ 7 := by decide

theorem pc1_congr {key key' : Block64} (h : ∀ p, p < 64 → p % 8 ≠ 7 → key.getMsbD p = key'.getMsbD p) :
    pc1 key = pc1 key' :=
  permute_congr fun p hp =>
    have ⟨hlt, hparity⟩ := desPc1Table_off_parity p hp
    h (p - 1) hlt hparity

/-- Settles O23: the key enters its schedule through PC1 alone. -/
theorem desScheduleIgnoresParity : Obligations.DesScheduleIgnoresParity :=
  ⟨desShifts_sum, desKeySchedule_getD_last, fun key key' h => by rw [desKeySchedule, desKeySchedule, pc1_congr h]⟩

end Sys2Proof.Machine
end

section
/-! The AES round transforms entry by entry: each byte of a transformed state, the two circulant products as one family that
is closed under composition, and the round key (spec/44_aes_round.md R210 to R216). -/

namespace Sys2Proof.Machine

/-! ## SubBytes and ShiftRows -/

@[simp] theorem stateByte_subBytes (st : Vector Word 4) (r c : Fin 4) :
    stateByte (subBytes st) r c = sbox (stateByte st r c) := stateByte_fromMatrix _ r c

@[simp] theorem stateByte_invSubBytes (st : Vector Word 4) (r c : Fin 4) :
    stateByte (invSubBytes st) r c = invSbox (stateByte st r c) := stateByte_fromMatrix _ r c

@[simp] theorem stateByte_shiftRows (st : Vector Word 4) (r c : Fin 4) :
    stateByte (shiftRows st) r c = stateByte st r (c + r) := stateByte_fromMatrix _ r c

@[simp] theorem stateByte_invShiftRows (st : Vector Word 4) (r c : Fin 4) :
    stateByte (invShiftRows st) r c = stateByte st r (c - r) := stateByte_fromMatrix _ r c

/-- Settles O17: a state is read back byte by byte from the matrix it is made of. -/
theorem aesSubbytesSubstitutesAllSixteen : Obligations.AesSubbytesSubstitutesAllSixteen := fun s =>
  ⟨_, _, exec_aesSubbytes s, exec_aesInvsubbytes s,
    fun r c => ⟨stateByte_subBytes s.state r c, stateByte_invSubBytes s.state r c⟩⟩

/-- R212 and R213 write out the sum and the difference of two column indices. -/
theorem ofNat_mod_four_eq (r c : Fin 4) :
    Fin.ofNat 4 ((c.val + r.val) % 4) = c + r ∧ Fin.ofNat 4 ((c.val + 4 - r.val) % 4) = c - r := by
  constructor
  · ext
    simp [Fin.val_add]
  · ext
    simp only [Fin.val_ofNat, Fin.val_sub]
    omega

/-- Settles O18: as O17, with the indices of `ofNat_mod_four_eq`. -/
theorem aesShiftrowsRotatesTheRows : Obligations.AesShiftrowsRotatesTheRows := by
  intro s
  refine ⟨_, _, exec_aesShiftrows s, exec_aesInvshiftrows s, fun r c => ?_⟩
  obtain ⟨hadd, hsub⟩ := ofNat_mod_four_eq r c
  rw [hadd, hsub]
  exact ⟨stateByte_shiftRows s.state r c, stateByte_invShiftRows s.state r c⟩

theorem invSubBytes_subBytes (st : Vector Word 4) : invSubBytes (subBytes st) = st :=
  matrix_ext fun r c => by simp [invSbox_sbox (stateByte st r c)]

theorem subBytes_invSubBytes (st : Vector Word 4) : subBytes (invSubBytes st) = st :=
  matrix_ext fun r c => by simp [sbox_invSbox (stateByte st r c)]

theorem invShiftRows_shiftRows (st : Vector Word 4) : invShiftRows (shiftRows st) = st :=
  matrix_ext fun r c => by simp

theorem shiftRows_invShiftRows (st : Vector Word 4) : shiftRows (invShiftRows st) = st :=
  matrix_ext fun r c => by simp

/-! ## MixColumns as a circulant product -/

/-- The first rows of the two matrices, R214 and R215. -/
def mixRow : Vector Byte 4 := #v[0x02, 0x03, 0x01, 0x01]

def invMixRow : Vector Byte 4 := #v[0x0E, 0x0B, 0x0D, 0x09]

/-! The four rows of a product, each base entry at its place. -/

@[simp] theorem circulantProduct_zero (base : Vector Byte 4) (x : Fin 4 → Byte) : circulantProduct base x 0 =
    mul base[0] (x 0) ^^^ mul base[1] (x 1) ^^^ mul base[2] (x 2) ^^^ mul base[3] (x 3) := rfl

@[simp] theorem circulantProduct_one (base : Vector Byte 4) (x : Fin 4 → Byte) : circulantProduct base x 1 =
    mul base[3] (x 0) ^^^ mul base[0] (x 1) ^^^ mul base[1] (x 2) ^^^ mul base[2] (x 3) := rfl

@[simp] theorem circulantProduct_two (base : Vector Byte 4) (x : Fin 4 → Byte) : circulantProduct base x 2 =
    mul base[2] (x 0) ^^^ mul base[3] (x 1) ^^^ mul base[0] (x 2) ^^^ mul base[1] (x 3) := rfl

@[simp] theorem circulantProduct_three (base : Vector Byte 4) (x : Fin 4 → Byte) : circulantProduct base x 3 =
    mul base[1] (x 0) ^^^ mul base[2] (x 1) ^^^ mul base[3] (x 2) ^^^ mul base[0] (x 3) := rfl

theorem two_gfMul (b : Byte) : mul 2#8 b = xtime b := (gfMul_comm 2 b).trans (gfMul_two b)

theorem three_gfMul (b : Byte) : mul 3#8 b = mul3 b := (mul3_gfMul 1 b).trans (congrArg mul3 (one_gfMul b))

/-- R214 writes the products by 02, 03 and 01 as `xtime`, `mul3` and the byte itself. -/
theorem mixColumn_eq (w : Word) : mixColumn w = packWord (circulantProduct mixRow (byteOf w)) := by
  simp [mixColumn, packWord, mixRow, two_gfMul, three_gfMul]

theorem invMixColumn_eq (w : Word) : invMixColumn w = packWord (circulantProduct invMixRow (byteOf w)) := rfl

theorem stateByte_mixColumns (st : Vector Word 4) (r c : Fin 4) :
    stateByte (mixColumns st) r c = circulantProduct mixRow (fun j => stateByte st j c) r := by
  simp [stateByte, mixColumns, mixColumn_eq]

theorem stateByte_invMixColumns (st : Vector Word 4) (r c : Fin 4) :
    stateByte (invMixColumns st) r c = circulantProduct invMixRow (fun j => stateByte st j c) r := by
  simp [stateByte, invMixColumns, invMixColumn_eq]

/-- Settles O19: both commands are circulant products, column by column. -/
theorem aesMixcolumnsIsTheMatrixProduct : Obligations.AesMixcolumnsIsTheMatrixProduct := fun s =>
  ⟨_, _, exec_aesMixcolumns s, exec_aesInvmixcolumns s,
    fun r c => ⟨stateByte_mixColumns s.state r c, stateByte_invMixColumns s.state r c⟩⟩

/-! ## Composition of circulant products -/

/-- The first row of the product of two circulant matrices: the cyclic convolution of their first rows. -/
def circulantMul (a b : Vector Byte 4) : Vector Byte 4 :=
  #v[mul a[0] b[0] ^^^ mul a[1] b[3] ^^^ mul a[2] b[2] ^^^ mul a[3] b[1],
     mul a[0] b[1] ^^^ mul a[1] b[0] ^^^ mul a[2] b[3] ^^^ mul a[3] b[2],
     mul a[0] b[2] ^^^ mul a[1] b[1] ^^^ mul a[2] b[0] ^^^ mul a[3] b[3],
     mul a[0] b[3] ^^^ mul a[1] b[2] ^^^ mul a[2] b[1] ^^^ mul a[3] b[0]]

/-- Circulant matrices multiply by their first rows, whatever row `r` of the product is read. -/
theorem circulantProduct_comp (a b : Vector Byte 4) (x : Fin 4 → Byte) (r : Fin 4) :
    circulantProduct a (circulantProduct b x) r = circulantProduct (circulantMul a b) x r := by
  match r with
  | 0 | 1 | 2 | 3 =>
    simp [circulantMul, gfMul_xor, xor_gfMul, gfMul_assoc]
    ac_rfl

theorem circulantProduct_identity (x : Fin 4 → Byte) (r : Fin 4) : circulantProduct #v[1, 0, 0, 0] x r = x r := by
  match r with
  | 0 | 1 | 2 | 3 => simp

theorem circulantMul_invMixRow_mixRow : circulantMul invMixRow mixRow = #v[1, 0, 0, 0] := by decide

theorem circulantMul_mixRow_invMixRow : circulantMul mixRow invMixRow = #v[1, 0, 0, 0] := by decide

theorem invMixColumns_mixColumns (st : Vector Word 4) : invMixColumns (mixColumns st) = st :=
  matrix_ext fun r c => by
    simp only [stateByte_invMixColumns, stateByte_mixColumns]
    rw [circulantProduct_comp, circulantMul_invMixRow_mixRow, circulantProduct_identity]

theorem mixColumns_invMixColumns (st : Vector Word 4) : mixColumns (invMixColumns st) = st :=
  matrix_ext fun r c => by
    simp only [stateByte_invMixColumns, stateByte_mixColumns]
    rw [circulantProduct_comp, circulantMul_mixRow_invMixRow, circulantProduct_identity]

/-- Settles O21: the inverse S-box, the opposite shift and the inverse circulant undo and are undone. -/
theorem inverseTransformsUndo : Obligations.InverseTransformsUndo := fun st =>
  ⟨invSubBytes_subBytes st, invShiftRows_shiftRows st, invMixColumns_mixColumns st, subBytes_invSubBytes st,
    shiftRows_invShiftRows st, mixColumns_invMixColumns st⟩

/-! ## AddRoundKey -/

theorem addRoundKey_get (w : Vector Word 60) (r : Nat) (st : Vector Word 4) (c : Fin 4) :
    (addRoundKey w r st)[c] = st[c] ^^^ scheduleWord w (4 * r + c.val) := columns_get _ c

theorem addRoundKey_addRoundKey (w : Vector Word 60) (r : Nat) (st : Vector Word 4) :
    addRoundKey w r (addRoundKey w r st) = st :=
  state_ext fun c => by rw [addRoundKey_get, addRoundKey_get, BitVec.xor_assoc, BitVec.xor_self, BitVec.xor_zero]

theorem scheduleWord_eq_wordOf (w : Vector Word 60) {i : Nat} (hi : i < 60) : scheduleWord w i = wordOf w i := by
  simp [scheduleWord_of_lt w i hi, wordOf, hi]

/-- Settles O20: the round key is added by XOR, so adding it again takes it away. -/
theorem aesAddroundkeyAddsTheRoundKey : Obligations.AesAddroundkeyAddsTheRoundKey := by
  intro s rnd hakv hrnd
  refine ⟨_, exec_aesAddroundkey_ok hakv hrnd, fun hle c => ?_, ?_⟩
  · rw [addRoundKey_get, scheduleWord_eq_wordOf s.w (by omega)]
  · have hagain := exec_aesAddroundkey_ok (s := { s with state := addRoundKey s.w rnd.toNat s.state }) hakv hrnd
    rwa [addRoundKey_addRoundKey] at hagain

end Sys2Proof.Machine
end

section
/-! Command sequences, and AES_ENC as the sequence of its primitive commands (spec/46_block_drivers.md R270, R272). -/

namespace Sys2Proof.Machine

/-! ## Sequences -/

theorem execSeq_cons {i : Instr} {s t : State} (h : exec i s = .next t) (rest : List Instr) :
    execSeq (i :: rest) s = execSeq rest t := by rw [execSeq, h]

theorem execSeq_append {l : List Instr} {s t : State} (h : execSeq l s = .next t) (rest : List Instr) :
    execSeq (l ++ rest) s = execSeq rest t := by
  induction l generalizing s with
  | nil => cases h; rfl
  | cons i l ih =>
    rw [execSeq] at h
    cases hi : exec i s with
    | next u =>
      rw [hi] at h
      rw [List.cons_append, execSeq_cons hi, ih h]
    | fault r | refused r => simp [hi] at h

/-! ## Sequences that work on STATE alone -/

/-- Run on `s` with any STATE after some completed command, the commands replace STATE by `f` of it and complete. -/
def MapsState (s : State) (commands : List Instr) (f : Vector Word 4 → Vector Word 4) : Prop :=
  ∀ st, execSeq commands (finished { s with state := st }) = .next (finished { s with state := f st })

variable {s : State}

theorem MapsState.single {i : Instr} {f : Vector Word 4 → Vector Word 4}
    (h : ∀ st, exec i (finished { s with state := st }) = .next (finished { s with state := f st })) :
    MapsState s [i] f := fun st => execSeq_cons (h st) []

theorem MapsState.append {l l' : List Instr} {f g : Vector Word 4 → Vector Word 4} (h : MapsState s l f)
    (h' : MapsState s l' g) : MapsState s (l ++ l') (g ∘ f) := fun st =>
  (execSeq_append (h st) l').trans (h' (f st))

/-- Rounds one after another fold their transforms over STATE. -/
theorem MapsState.flatMap {round : Nat → List Instr} {f : Vector Word 4 → Nat → Vector Word 4} {rs : List Nat}
    (h : ∀ r ∈ rs, MapsState s (round r) (f · r)) : MapsState s (rs.flatMap round) (rs.foldl f) := by
  induction rs with
  | nil => exact fun st => rfl
  | cons r rs ih =>
    obtain ⟨hr, hrs⟩ := List.forall_mem_cons.mp h
    exact hr.append (ih hrs)

theorem mapsState_subBytes : MapsState s [.aesSubbytes] subBytes := .single fun _ => exec_aesSubbytes _

theorem mapsState_shiftRows : MapsState s [.aesShiftrows] shiftRows := .single fun _ => exec_aesShiftrows _

theorem mapsState_mixColumns : MapsState s [.aesMixcolumns] mixColumns := .single fun _ => exec_aesMixcolumns _

theorem mapsState_addRoundKey (hakv : s.akv = true) {r : Nat} (hr : r ≤ s.nr.toNat) :
    MapsState s [.aesAddroundkey (BitVec.ofNat 4 r)] (addRoundKey s.w r) := .single fun st => by
  have hval : (BitVec.ofNat 4 r).toNat = r := Nat.mod_eq_of_lt (hr.trans_lt s.nr.isLt)
  have h := exec_aesAddroundkey_ok (s := finished { s with state := st }) hakv (hval.trans_le hr)
  rw [hval] at h
  exact h

/-- An interior round, R270. -/
theorem mapsState_aesRound (hakv : s.akv = true) {r : Nat} (hr : r ≤ s.nr.toNat) :
    MapsState s (aesRoundCommands r) (aesRound s.w · r) :=
  mapsState_subBytes.append
    (mapsState_shiftRows.append (mapsState_mixColumns.append (mapsState_addRoundKey hakv hr)))

/-! ## AES_ENC -/

/-- Settles O29: after the first round key every command works on STATE alone, and their transforms compose to
`aesCipher`. -/
theorem aesEncIsItsRounds : Obligations.AesEncIsItsRounds := by
  intro s hakv
  have hfirst : exec (.aesAddroundkey 0) s = .next (finished { s with state := addRoundKey s.w 0 s.state }) :=
    exec_aesAddroundkey_ok hakv (Nat.zero_le _)
  have hinterior : MapsState s ((interiorRounds s.nr.toNat).flatMap aesRoundCommands)
      ((interiorRounds s.nr.toNat).foldl (aesRound s.w)) :=
    .flatMap fun r hr => mapsState_aesRound hakv (by have := List.mem_range'_1.mp hr; omega)
  have hfinal := mapsState_subBytes.append (mapsState_shiftRows.append (mapsState_addRoundKey hakv le_rfl))
  refine ⟨aesCipher s.w s.nr.toNat s.state, by rw [exec_aesEnc, if_pos hakv], ?_⟩
  rw [aesEncCommands, List.append_assoc, List.singleton_append, execSeq_cons hfirst]
  exact hinterior.append hfinal _

end Sys2Proof.Machine
end

section
/-! The DES permutations IP and FP as inverse tables, and the Feistel function of each strategy position by position
(spec/45_des_feistel.md R240 to R246). -/

namespace Sys2Proof.Machine

/-! ## IP and FP (spec/45_des_feistel.md R246) -/

/-- Two permutations undo each other when looking a position up in the second table, and the answer in the first, leads
back to the position. -/
theorem permute_permute_cancel {n : Nat} {T U : List Nat} (hT : T.length = n) (hU : U.length = n)
    (h : ∀ j < n, U.getD j 0 - 1 < n ∧ T.getD (U.getD j 0 - 1) 0 - 1 = j) (x : BitVec n) :
    permute n U (permute n T x) = x := by
  refine BitVec.eq_of_getMsbD_eq fun j hj => ?_
  obtain ⟨hlt, hback⟩ := h j hj
  rw [permute_getMsbD n U _ hU j hj, permute_getMsbD n T x hT _ hlt, hback]

theorem desIpTable_at_desFpTable :
    ∀ j < 64, desFpTable.getD j 0 - 1 < 64 ∧ desIpTable.getD (desFpTable.getD j 0 - 1) 0 - 1 = j := by decide

theorem desFpTable_at_desIpTable :
    ∀ j < 64, desIpTable.getD j 0 - 1 < 64 ∧ desFpTable.getD (desIpTable.getD j 0 - 1) 0 - 1 = j := by decide

@[simp] theorem finalPerm_initialPerm (x : Block64) : finalPerm (initialPerm x) = x :=
  permute_permute_cancel (T := desIpTable) (U := desFpTable) rfl rfl desIpTable_at_desFpTable x

@[simp] theorem initialPerm_finalPerm (x : Block64) : initialPerm (finalPerm x) = x :=
  permute_permute_cancel (T := desFpTable) (U := desIpTable) rfl rfl desFpTable_at_desIpTable x

/-- Settles O13: the tables of IP and FP are inverse to each other. -/
theorem fpAndIpUndoEachOther : Obligations.FpAndIpUndoEachOther := fun x =>
  ⟨finalPerm_initialPerm x, initialPerm_finalPerm x⟩

/-! ## The strategies that keep the first 32 positions (spec/45_des_feistel.md R242, R243) -/

theorem getMsbD_extractLsb'_top (x : BitVec 48) {j : Nat} (hj : j < 32) :
    (x.extractLsb' 16 32).getMsbD j = x.getMsbD j := by
  simp only [BitVec.getMsbD_eq_getLsbD, BitVec.getLsbD_extractLsb']
  simp [hj, show j < 48 by omega, show 31 - j < 32 by omega, show 16 + (31 - j) = 47 - j by omega]

theorem expand_top_getMsbD (r : Word) {j : Nat} (hj : j < 32) :
    ((expand r).extractLsb' 16 32).getMsbD j = r.getMsbD (desETable.getD j 0 - 1) := by
  rw [getMsbD_extractLsb'_top _ hj, expand, permute_getMsbD 48 desETable r rfl j (by omega)]

theorem feistelXor_eq (r : Word) (k : Subkey) :
    feistelXor r k = (expand r).extractLsb' 16 32 ^^^ k.extractLsb' 16 32 := BitVec.extractLsb'_xor

theorem feistelAnd_eq (r : Word) (k : Subkey) :
    feistelAnd r k = (expand r).extractLsb' 16 32 &&& k.extractLsb' 16 32 := BitVec.extractLsb'_and

theorem getMsbD_feistelXor (r : Word) (k : Subkey) {j : Nat} (hj : j < 32) :
    (feistelXor r k).getMsbD j = (r.getMsbD (desETable.getD j 0 - 1) ^^ k.getMsbD j) := by
  rw [feistelXor_eq, BitVec.getMsbD_xor, expand_top_getMsbD r hj, getMsbD_extractLsb'_top k hj]

theorem getMsbD_feistelAnd (r : Word) (k : Subkey) {j : Nat} (hj : j < 32) :
    (feistelAnd r k).getMsbD j = (r.getMsbD (desETable.getD j 0 - 1) && k.getMsbD j) := by
  rw [feistelAnd_eq, BitVec.getMsbD_and, expand_top_getMsbD r hj, getMsbD_extractLsb'_top k hj]

/-- The first 32 entries of E name positions 1 to 21 and 32 only (R245). -/
theorem desETable_top : ∀ j < 32, desETable.getD j 0 - 1 < 21 ∨ desETable.getD j 0 - 1 = 31 := by decide

theorem expand_top_congr {r r' : Word} (h : ∀ j, j < 21 ∨ j = 31 → r.getMsbD j = r'.getMsbD j) :
    (expand r).extractLsb' 16 32 = (expand r').extractLsb' 16 32 :=
  BitVec.eq_of_getMsbD_eq fun j hj => by
    rw [expand_top_getMsbD r hj, expand_top_getMsbD r' hj, h _ (desETable_top j hj)]

@[simp] theorem expand_zero : expand 0#32 = 0#48 := by decide

/-- Settles O28: both strategies read R through the first 32 entries of E, and K through its first 32 bits. -/
theorem xorAndAndStrategiesUseFewBits : Obligations.XorAndAndStrategiesUseFewBits := by
  refine ⟨fun r r' k k' hr hk => ?_, fun k => ?_, fun r k hk => ?_, ?_⟩
  · rw [feistelXor_eq, feistelXor_eq, feistelAnd_eq, feistelAnd_eq, expand_top_congr hr, hk]
    exact ⟨rfl, rfl⟩
  · simp [feistelAnd_eq]
  · simp [feistelAnd_eq, hk]
  · simp [feistelXor_eq]

/-! ## The S-box layer (spec/45_des_feistel.md R241) -/

/-- Bit `b` of group `i`, counted from the most significant as R241 does. -/
theorem getLsbD_group (x : BitVec 48) {i b : Nat} (hi : i < 8) (hb : b < 6) :
    (x.extractLsb' (42 - 6 * i) 6).getLsbD (5 - b) = x.getMsbD (6 * i + b) := by
  rw [BitVec.getLsbD_extractLsb', BitVec.getMsbD_eq_getLsbD]
  simp [show 5 - b < 6 by omega, show 6 * i + b < 48 by omega,
    show 42 - 6 * i + (5 - b) = 47 - (6 * i + b) by omega]

theorem toNat_middle_bits : ∀ g : BitVec 6, (g.extractLsb' 1 4).toNat =
    8 * (g.getLsbD 4).toNat + 4 * (g.getLsbD 3).toNat + 2 * (g.getLsbD 2).toNat + (g.getLsbD 1).toNat := by decide

theorem sboxOutput_eq (x : BitVec 48) {i : Nat} (hi : i < 8) :
    sboxOutput x i = desSbox i (groupRow x i) (groupColumn x i) := by
  have hbit := fun b (hb : b < 6) => getLsbD_group x hi hb
  rw [sboxOutput, toNat_middle_bits, hbit 0 (by decide), hbit 1 (by decide), hbit 2 (by decide), hbit 3 (by decide),
    hbit 4 (by decide), hbit 5 (by decide)]
  rfl

/-- The nibble shifted in last is the lowest one. -/
theorem extractLsb'_shiftIn_low (out : Word) (d : BitVec 4) :
    (out <<< 4 ||| d.setWidth 32).extractLsb' 0 4 = d := by
  refine BitVec.eq_of_getLsbD_eq fun b hb => ?_
  simp [hb, show b < 32 by omega]

/-- Shifting a nibble in moves the others up by four. -/
theorem extractLsb'_shiftIn_high (out : Word) (d : BitVec 4) {n : Nat} (hn : n + 8 ≤ 32) :
    (out <<< 4 ||| d.setWidth 32).extractLsb' (n + 4) 4 = out.extractLsb' n 4 := by
  refine BitVec.eq_of_getLsbD_eq fun b hb => ?_
  have hd := BitVec.getLsbD_of_ge d (n + 4 + b) (by omega)
  simp only [BitVec.getLsbD_extractLsb', BitVec.getLsbD_or, BitVec.getLsbD_shiftLeft, BitVec.getLsbD_setWidth]
  simp [hb, hd, show n + 4 + b < 32 by omega, show ¬ n + 4 + b < 4 by omega, show n + 4 + b - 4 = n + b by omega]

theorem extractLsb'_sboxLayer (x : BitVec 48) {i : Nat} (hi : i < 8) :
    (sboxLayer x).extractLsb' (28 - 4 * i) 4 = sboxOutput x i := by
  interval_cases i <;>
    simp only [sboxLayer, List.foldl, Nat.reduceMul, Nat.reduceSub, Nat.reduceAdd, Nat.reduceLeDiff,
      extractLsb'_shiftIn_low, extractLsb'_shiftIn_high]

/-! ## The three strategies (spec/45_des_feistel.md R244) -/

theorem feistel_zero (r : Word) (k : Subkey) : feistel 0 r k = feistelStandard r k := rfl
theorem feistel_one (r : Word) (k : Subkey) : feistel 1 r k = feistelXor r k := rfl
theorem feistel_two (r : Word) (k : Subkey) : feistel 2 r k = feistelAnd r k := rfl

/-- Settles O25: DES_F writes `feistel` of the latched strategy, and each strategy is known position by position. -/
theorem desFFollowsTheStrategy : Obligations.DesFFollowsTheStrategy := by
  intro s k hdkv
  refine ⟨feistel s.dstratL s.dstate[1] (subkey s k), by rw [exec_desF, if_pos hdkv],
    fun hstd => ?_, fun hxor j hj => ?_, fun hand j hj => ?_⟩
  · rw [hstd, feistel_zero]
    exact ⟨sboxLayer (expand s.dstate[1] ^^^ subkey s k), rfl, fun i hi =>
      (extractLsb'_sboxLayer _ hi).trans (sboxOutput_eq _ hi)⟩
  · rw [hxor, feistel_one, getMsbD_feistelXor _ _ hj]
  · rw [hand, feistel_two, getMsbD_feistelAnd _ _ hj]

end Sys2Proof.Machine
end

section
/-! DES_ROUND and DES_SWAP on the halves of DSTATE (spec/45_des_feistel.md R247, R253, R254). -/

namespace Sys2Proof.Machine

@[simp] theorem halves_eta (d : Vector Word 2) : halves d[0] d[1] = d := by
  apply Vector.ext
  intro i hi
  interval_cases i <;> rfl

/-- What DES_SWAP makes of DSTATE. -/
def swapHalves (d : Vector Word 2) : Vector Word 2 := halves d[1] d[0]

/-- What DES_ROUND makes of DSTATE under the schedule and the strategy of `s`. -/
def roundHalves (s : State) (k : BitVec 4) (d : Vector Word 2) : Vector Word 2 :=
  halves d[1] (d[0] ^^^ feistel s.dstratL d[1] (subkey s k))

theorem exec_desRound_ok {s : State} (hdkv : s.dkv = true) (k : BitVec 4) :
    exec (.desRound k) s = .next (finished { s with dstate := roundHalves s k s.dstate }) := by
  rw [exec_desRound, if_pos hdkv, roundHalves]

theorem xor_xor_self_right (v f : Word) : v ^^^ f ^^^ f = v := by
  rw [BitVec.xor_assoc, BitVec.xor_self, BitVec.xor_zero]

/-- Settles O26: the old left half is the new right one with the same Feistel value XORed once more. -/
theorem desRoundSwapsAndMixes : Obligations.DesRoundSwapsAndMixes := fun _ k hdkv =>
  ⟨_, exec_desRound_ok hdkv k, rfl, rfl, (xor_xor_self_right _ _).symm, rfl⟩

/-- A swapped round is its own inverse: the second one XORs the same Feistel value away (R253). -/
theorem swapHalves_roundHalves_twice (s : State) (k : BitVec 4) (d : Vector Word 2) :
    swapHalves (roundHalves s k (swapHalves (roundHalves s k d))) = d :=
  calc swapHalves (roundHalves s k (swapHalves (roundHalves s k d)))
    _ = halves (d[0] ^^^ feistel s.dstratL d[1] (subkey s k) ^^^ feistel s.dstratL d[1] (subkey s k)) d[1] := rfl
    _ = d := by rw [xor_xor_self_right, halves_eta]

/-- A swap in the middle of a sequence, after commands that changed DSTATE only. -/
theorem execSeq_desSwap (s : State) (d : Vector Word 2) (rest : List Instr) :
    execSeq (.desSwap :: rest) (finished { s with dstate := d })
      = execSeq rest (finished { s with dstate := swapHalves d }) :=
  execSeq_cons (exec_desSwap _) rest

/-- A round in the middle of a sequence, after commands that changed DSTATE only. -/
theorem execSeq_desRound {s : State} (hdkv : s.dkv = true) (k : BitVec 4) (d : Vector Word 2) (rest : List Instr) :
    execSeq (.desRound k :: rest) (finished { s with dstate := d })
      = execSeq rest (finished { s with dstate := roundHalves s k d }) :=
  execSeq_cons (exec_desRound_ok (s := finished { s with dstate := d }) hdkv k) rest

/-- Settles O27: the four commands are a swapped round done twice. -/
theorem desSwapExchangesTheHalves : Obligations.DesSwapExchangesTheHalves := by
  refine fun s => ⟨exec_desSwap s, fun k hdkv => ?_⟩
  rw [execSeq_cons (exec_desRound_ok hdkv k), execSeq_desSwap, execSeq_desRound hdkv, execSeq_desSwap,
    swapHalves_roundHalves_twice, execSeq]

end Sys2Proof.Machine
end

section
/-! AES_DEC as the sequence of its inverse commands, and the two AES drivers as inverses of each other
(spec/46_block_drivers.md R271, R273, R278). -/

namespace Sys2Proof.Machine

variable {s : State}

/-! ## AES_DEC -/

theorem mapsState_invSubBytes : MapsState s [.aesInvsubbytes] invSubBytes := .single fun _ => exec_aesInvsubbytes _

theorem mapsState_invShiftRows : MapsState s [.aesInvshiftrows] invShiftRows :=
  .single fun _ => exec_aesInvshiftrows _

theorem mapsState_invMixColumns : MapsState s [.aesInvmixcolumns] invMixColumns :=
  .single fun _ => exec_aesInvmixcolumns _

/-- An inverse interior round, R271. -/
theorem mapsState_aesInvRound (hakv : s.akv = true) {r : Nat} (hr : r ≤ s.nr.toNat) :
    MapsState s (aesInvRoundCommands r) (aesInvRound s.w · r) :=
  mapsState_invShiftRows.append
    (mapsState_invSubBytes.append ((mapsState_addRoundKey hakv hr).append mapsState_invMixColumns))

theorem exec_aesEnc_ok (hakv : s.akv = true) :
    exec .aesEnc s = .next (finished { s with state := aesCipher s.w s.nr.toNat s.state }) :=
  (exec_aesEnc s).trans (if_pos hakv)

theorem exec_aesDec_ok (hakv : s.akv = true) :
    exec .aesDec s = .next (finished { s with state := aesInvCipher s.w s.nr.toNat s.state }) :=
  (exec_aesDec s).trans (if_pos hakv)

/-- Settles O30: after the last round key every command works on STATE alone, and their transforms compose to
`aesInvCipher`. -/
theorem aesDecIsItsRounds : Obligations.AesDecIsItsRounds := by
  intro s hakv
  have hfirst : exec (.aesAddroundkey (BitVec.ofNat 4 s.nr.toNat)) s
      = .next (finished { s with state := addRoundKey s.w s.nr.toNat s.state }) := by
    rw [BitVec.ofNat_toNat, BitVec.setWidth_eq, exec_aesAddroundkey_ok hakv le_rfl]
  have hinterior : MapsState s ((interiorRounds s.nr.toNat).reverse.flatMap aesInvRoundCommands)
      ((interiorRounds s.nr.toNat).reverse.foldl (aesInvRound s.w)) :=
    .flatMap fun r hr => mapsState_aesInvRound hakv
      (by have := List.mem_range'_1.mp (List.mem_reverse.mp hr); omega)
  have hfinal := mapsState_invShiftRows.append
    (mapsState_invSubBytes.append (mapsState_addRoundKey hakv (Nat.zero_le s.nr.toNat)))
  refine ⟨_, exec_aesDec_ok hakv, ?_⟩
  rw [aesDecCommands, List.append_assoc, List.singleton_append, execSeq_cons hfirst]
  exact hinterior.append hfinal _

/-! ## Undoing rounds -/

/-- Steps that undo single steps undo a whole fold when they are taken in the reverse order. -/
theorem foldl_reverse_foldl_cancel {α β : Type} {f g : α → β → α} (h : ∀ a b, g (f a b) b = a) (l : List β) (a : α) :
    l.reverse.foldl g (l.foldl f a) = a := by
  induction l generalizing a with
  | nil => rfl
  | cons b l ih => rw [List.foldl_cons, List.reverse_cons, List.foldl_append, ih, List.foldl_cons, h, List.foldl_nil]

/-- What undoes one interior round: its four transforms undone, the last one first. -/
def undoAesRound (w : Vector Word 60) (st : Vector Word 4) (r : Nat) : Vector Word 4 :=
  invSubBytes (invShiftRows (invMixColumns (addRoundKey w r st)))

theorem undoAesRound_aesRound (w : Vector Word 60) (st : Vector Word 4) (r : Nat) :
    undoAesRound w (aesRound w st r) r = st := by
  rw [undoAesRound, aesRound, addRoundKey_addRoundKey, invMixColumns_mixColumns, invShiftRows_shiftRows,
    invSubBytes_subBytes]

theorem aesRound_undoAesRound (w : Vector Word 60) (st : Vector Word 4) (r : Nat) :
    aesRound w (undoAesRound w st r) r = st := by
  rw [undoAesRound, aesRound, subBytes_invSubBytes, shiftRows_invShiftRows, mixColumns_invMixColumns,
    addRoundKey_addRoundKey]

/-- R271 starts each round at InvShiftRows. With InvShiftRows and InvSubBytes counted to the round before, its rounds
are those of AesCipher undone one by one. -/
theorem aesInvCipher_eq_undo (w : Vector Word 60) (nr : Nat) (st : Vector Word 4) :
    aesInvCipher w nr st = addRoundKey w 0
      ((interiorRounds nr).reverse.foldl (undoAesRound w) (invSubBytes (invShiftRows (addRoundKey w nr st)))) :=
  congrArg (addRoundKey w 0)
    (List.foldl_hom (fun st => invSubBytes (invShiftRows st)) (g₁ := aesInvRound w) fun _ _ => rfl).symm

theorem aesInvCipher_aesCipher (w : Vector Word 60) (nr : Nat) (st : Vector Word 4) :
    aesInvCipher w nr (aesCipher w nr st) = st := by
  rw [aesInvCipher_eq_undo, aesCipher, addRoundKey_addRoundKey, invShiftRows_shiftRows, invSubBytes_subBytes,
    foldl_reverse_foldl_cancel (undoAesRound_aesRound w), addRoundKey_addRoundKey]

theorem aesCipher_aesInvCipher (w : Vector Word 60) (nr : Nat) (st : Vector Word 4) :
    aesCipher w nr (aesInvCipher w nr st) = st := by
  have hrounds := foldl_reverse_foldl_cancel (aesRound_undoAesRound w) (interiorRounds nr).reverse
  rw [List.reverse_reverse] at hrounds
  rw [aesInvCipher_eq_undo, aesCipher, addRoundKey_addRoundKey, hrounds, subBytes_invSubBytes, shiftRows_invShiftRows,
    addRoundKey_addRoundKey]

theorem mapsState_aesCipher (hakv : s.akv = true) : MapsState s [.aesEnc] (aesCipher s.w s.nr.toNat) :=
  .single fun _ => exec_aesEnc_ok hakv

theorem mapsState_aesInvCipher (hakv : s.akv = true) : MapsState s [.aesDec] (aesInvCipher s.w s.nr.toNat) :=
  .single fun _ => exec_aesDec_ok hakv

/-- Settles O31: the two ciphers under one schedule undo each other. -/
theorem aesDecUndoesAesEnc : Obligations.AesDecUndoesAesEnc := by
  refine fun s hakv => ⟨?_, ?_⟩
  · rw [execSeq_cons (exec_aesEnc_ok hakv), mapsState_aesInvCipher hakv, aesInvCipher_aesCipher]
  · rw [execSeq_cons (exec_aesDec_ok hakv), mapsState_aesCipher hakv, aesCipher_aesInvCipher]

end Sys2Proof.Machine
end

section
/-! DES_ENC and DES_DEC as the sequences of their primitive commands, and as inverses of each other
(spec/46_block_drivers.md R274 to R278). -/

namespace Sys2Proof.Machine

/-! ## A block and its halves -/

/-- The halves L and R of a block, as DesCipher carries them from round to round. -/
def blockHalves (x : Block64) : Word × Word := (x.extractLsb' 32 32, x.extractLsb' 0 32)

def joinHalves (lr : Word × Word) : Block64 := lr.1 ++ lr.2

theorem blockHalves_joinHalves (lr : Word × Word) : blockHalves (joinHalves lr) = lr :=
  Prod.ext BitVec.extractLsb'_append_eq_left BitVec.extractLsb'_append_eq_right

theorem joinHalves_blockHalves (x : Block64) : joinHalves (blockHalves x) = x := splitData_append x

theorem splitData_words (l r : Word) : splitData (l ++ r) = halves l r :=
  congrArg₂ halves BitVec.extractLsb'_append_eq_left BitVec.extractLsb'_append_eq_right

theorem splitData_desData (s : State) : splitData (desData s) = s.dstate :=
  (splitData_words _ _).trans (halves_eta s.dstate)

theorem desData_finished_splitData (s : State) (x : Block64) :
    desData (finished { s with dstate := splitData x }) = x := splitData_append x

/-- R274: IP, the rounds, and FP of the swapped halves. -/
theorem desCipherWith_eq (strat : BitVec 2) (keys : List Subkey) (x : Block64) :
    desCipherWith strat keys x
      = finalPerm (joinHalves (keys.foldl (desRound strat) (blockHalves (initialPerm x))).swap) := rfl

/-! ## The commands of a block -/

variable {s : State}

/-- Rounds in the middle of a sequence are the rounds of DesCipher on the halves. -/
theorem execSeq_desRounds (hdkv : s.dkv = true) (ks : List (BitVec 4)) (lr : Word × Word) (rest : List Instr) :
    execSeq (ks.map .desRound ++ rest) (finished { s with dstate := halves lr.1 lr.2 })
      = execSeq rest (finished { s with
          dstate := halves ((ks.map (subkey s)).foldl (desRound s.dstratL) lr).1
            ((ks.map (subkey s)).foldl (desRound s.dstratL) lr).2 }) := by
  induction ks generalizing lr with
  | nil => rfl
  | cons k ks ih =>
    rw [List.map_cons, List.cons_append, execSeq_desRound hdkv]
    exact ih (desRound s.dstratL lr (subkey s k))

/-- The steps of R274 as commands, whatever the sequence of round indices. -/
theorem execSeq_desBlock (hdkv : s.dkv = true) (ks : List (BitVec 4)) :
    execSeq ([.desIp] ++ ks.map .desRound ++ [.desSwap, .desFp]) s
      = .next (finished { s with
          dstate := splitData (desCipherWith s.dstratL (ks.map (subkey s)) (desData s)) }) := by
  rw [List.append_assoc, List.singleton_append, execSeq_cons (exec_desIp s)]
  refine (execSeq_desRounds hdkv ks (blockHalves (initialPerm (desData s))) _).trans ?_
  rw [execSeq_desSwap, execSeq_cons (exec_desFp _)]
  rfl

/-- The round indices of DES_ENC, in order. -/
def desRoundIndices : List (BitVec 4) := (List.range 16).map (BitVec.ofNat 4)

theorem desEncCommands_eq : desEncCommands = [.desIp] ++ desRoundIndices.map .desRound ++ [.desSwap, .desFp] := rfl

theorem desDecCommands_eq :
    desDecCommands = [.desIp] ++ desRoundIndices.reverse.map .desRound ++ [.desSwap, .desFp] := rfl

theorem map_subkey_desRoundIndices (s : State) : desRoundIndices.map (subkey s) = s.dk.toList := by
  refine List.ext_getElem (by simp [desRoundIndices]) fun k hk hk' => ?_
  have hlt : k < 16 := by simpa using hk'
  simp [desRoundIndices, subkey, Nat.mod_eq_of_lt hlt]

theorem exec_desEnc_ok (hdkv : s.dkv = true) :
    exec .desEnc s = .next (finished { s with dstate := splitData (desCipher s.dstratL s.dk (desData s)) }) :=
  (exec_desEnc s).trans (if_pos hdkv)

theorem exec_desDec_ok (hdkv : s.dkv = true) :
    exec .desDec s = .next (finished { s with dstate := splitData (desInvCipher s.dstratL s.dk (desData s)) }) :=
  (exec_desDec s).trans (if_pos hdkv)

/-- Settles O32: both sequences are the steps of R274, with the subkeys of DK in order and in the reverse order. -/
theorem desBlockCommandsAreTheirRounds : Obligations.DesBlockCommandsAreTheirRounds := by
  refine fun s hdkv => ⟨_, _, exec_desEnc_ok hdkv, ?_, exec_desDec_ok hdkv, ?_⟩
  · rw [desEncCommands_eq, execSeq_desBlock hdkv, map_subkey_desRoundIndices, desCipher]
  · rw [desDecCommands_eq, execSeq_desBlock hdkv, List.map_reverse, map_subkey_desRoundIndices, desInvCipher]

/-! ## Undoing rounds -/

/-- What undoes one round: the round itself between two swaps (R247). -/
def undoDesRound (strat : BitVec 2) (lr : Word × Word) (k : Subkey) : Word × Word :=
  (desRound strat lr.swap k).swap

theorem undoDesRound_desRound (strat : BitVec 2) (lr : Word × Word) (k : Subkey) :
    undoDesRound strat (desRound strat lr k) k = lr :=
  Prod.ext (xor_xor_self_right lr.1 (feistel strat lr.2 k)) rfl

/-- Rounds between two swaps undo rounds one by one, as the swaps between them cancel. -/
theorem swap_foldl_desRound_swap (strat : BitVec 2) (keys : List Subkey) (lr : Word × Word) :
    (keys.foldl (desRound strat) lr.swap).swap = keys.foldl (undoDesRound strat) lr :=
  (List.foldl_hom Prod.swap (g₁ := desRound strat) (init := lr.swap) fun _ _ => rfl).symm

/-- R275: the same steps with the subkeys in the reverse order undo a block. FP leaves the halves swapped, so the second
pass runs its rounds between two swaps. -/
theorem desCipherWith_reverse_cancel (strat : BitVec 2) (keys : List Subkey) (x : Block64) :
    desCipherWith strat keys.reverse (desCipherWith strat keys x) = x := by
  rw [desCipherWith_eq, desCipherWith_eq, initialPerm_finalPerm, blockHalves_joinHalves, swap_foldl_desRound_swap,
    foldl_reverse_foldl_cancel (undoDesRound_desRound strat), joinHalves_blockHalves, finalPerm_initialPerm]

theorem desInvCipher_desCipher (strat : BitVec 2) (dk : Vector Subkey 16) (x : Block64) :
    desInvCipher strat dk (desCipher strat dk x) = x := desCipherWith_reverse_cancel strat dk.toList x

theorem desCipher_desInvCipher (strat : BitVec 2) (dk : Vector Subkey 16) (x : Block64) :
    desCipher strat dk (desInvCipher strat dk x) = x := by
  have h := desCipherWith_reverse_cancel strat dk.toList.reverse x
  rwa [List.reverse_reverse] at h

/-- DES_ENC after commands that changed DSTATE only, on a block that DSTATE holds in halves. -/
theorem exec_desEnc_splitData (hdkv : s.dkv = true) (x : Block64) :
    exec .desEnc (finished { s with dstate := splitData x })
      = .next (finished { s with dstate := splitData (desCipher s.dstratL s.dk x) }) := by
  have h := exec_desEnc_ok (s := finished { s with dstate := splitData x }) hdkv
  rwa [desData_finished_splitData] at h

/-- DES_DEC after commands that changed DSTATE only, on a block that DSTATE holds in halves. -/
theorem exec_desDec_splitData (hdkv : s.dkv = true) (x : Block64) :
    exec .desDec (finished { s with dstate := splitData x })
      = .next (finished { s with dstate := splitData (desInvCipher s.dstratL s.dk x) }) := by
  have h := exec_desDec_ok (s := finished { s with dstate := splitData x }) hdkv
  rwa [desData_finished_splitData] at h

/-- Settles O33: the two ciphers under one schedule and one strategy undo each other. -/
theorem desDecUndoesDesEnc : Obligations.DesDecUndoesDesEnc := by
  refine fun s hdkv => ⟨?_, ?_⟩
  · rw [execSeq_cons (exec_desEnc_ok hdkv), execSeq_cons (exec_desDec_splitData hdkv _), desInvCipher_desCipher,
      splitData_desData, execSeq]
  · rw [execSeq_cons (exec_desDec_ok hdkv), execSeq_cons (exec_desEnc_splitData hdkv _), desCipher_desInvCipher,
      splitData_desData, execSeq]

end Sys2Proof.Machine
end

section
/-! The known vectors: a key expansion and one block from reset (spec/95_test_vectors.md V-AES-1,
spec/46_block_drivers.md R276). -/

namespace Sys2Proof.Machine

variable {s : State}

theorem execSeq_aesKexp_aesEnc {nk nr : Nat} (h : aesParams (klen s).toNat = some (nk, nr)) :
    execSeq [.aesKexp, .aesEnc] s = .next (finished { s with
      w := padTo 60 0 (keyExpansion nk nr (aesKeyWords s nk))
      nr := BitVec.ofNat 4 nr
      akv := true
      state := aesCipher (padTo 60 0 (keyExpansion nk nr (aesKeyWords s nk))) (BitVec.ofNat 4 nr).toNat s.state }) :=
  (execSeq_cons (exec_aesKexp_ok h) _).trans (execSeq_cons (exec_aesEnc_ok rfl) _)

theorem exec_desKexp_ok (hklen : klen s = 8) (hdstrat : dstrat s ≠ 3) :
    exec .desKexp s = .next (finished { s with
      dk := padTo 16 0 (desKeySchedule (desKey s)), dstratL := dstrat s, dkv := true }) := by
  rw [exec_desKexp, if_neg (not_not_intro hklen), if_neg hdstrat]

theorem execSeq_desKexp_desEnc (hklen : klen s = 8) (hdstrat : dstrat s ≠ 3) :
    execSeq [.desKexp, .desEnc] s = .next (finished { s with
      dk := padTo 16 0 (desKeySchedule (desKey s))
      dstratL := dstrat s
      dkv := true
      dstate := splitData (desCipher (dstrat s) (padTo 16 0 (desKeySchedule (desKey s))) (desData s)) }) :=
  (execSeq_cons (exec_desKexp_ok hklen hdstrat) _).trans (execSeq_cons (exec_desEnc_ok rfl) _)

/-- Settles O34: each pair of commands leaves its cipher of the block under the expanded key, which evaluates to the
vector. -/
theorem knownVectorsAreReproduced : Obligations.KnownVectorsAreReproduced :=
  ⟨⟨_, execSeq_aesKexp_aesEnc (nk := 4) (nr := 10) (by decide), by decide +kernel, by decide +kernel⟩,
    ⟨_, execSeq_desKexp_desEnc (by decide) (by decide), by decide +kernel, by decide +kernel⟩⟩

end Sys2Proof.Machine
end

section
/-! The control commands and the two resets (spec/47_control.md R290, R292, spec/70_reset_and_hazards.md R361, R362). -/

namespace Sys2Proof.Machine

/-- Settles O6: SRST is a hard reset that has completed. -/
theorem srstGivesTheResetState : Obligations.SrstGivesTheResetState := exec_srst

/-- Settles O7: NOP is a completion without error and without writes. -/
theorem nopChangesOnlyCompletion : Obligations.NopChangesOnlyCompletion := exec_nop

/-- Settles O5: the reset event is a hard reset, and SRST after it another one. -/
theorem resetEventForgetsTheBlock : Obligations.ResetEventForgetsTheBlock := fun s =>
  ⟨blockOf_hardReset s, _, exec_srst _, blockOf_hardReset (perform .reset s)⟩

end Sys2Proof.Machine
end

section
/-! Error completions: which command reports which code, and that a failed command writes nothing else
(spec/60_exceptions.md R322 to R335). -/

namespace Sys2Proof.Machine

/-! ## Completion -/

theorem engineStep_of_decode_ok {c : Word} {i : Instr} (h : decode c = .ok i) (s : State) :
    engineStep c s = exec i s := by
  simp [engineStep, h]

/-- A word that does not decode completes with ILLEGAL_CMD (spec/30_encoding.md R94). -/
theorem engineStep_of_decode_error {c : Word} {r : Reject} (h : decode c = .error r) (s : State) :
    engineStep c s = .next (failed 4 s) := by
  simp [engineStep, h]

/-- Failed or finished, a command has completed. -/
theorem engineStep_completes (c : Word) (s : State) :
    ∃ t, engineStep c s = .next t ∧ t.pending = none ∧ t.busy = false := by
  obtain ⟨e, -, h⟩ | ⟨u, -, h⟩ := engineStep_cases c s
  · exact ⟨failed e s, h, rfl, rfl⟩
  · exact ⟨finished u, h, rfl, rfl⟩

/-- Settles O41: a step is an engine step, which completes, or an outside event or nothing, which do not stop. -/
theorem stepsAlwaysComplete : Obligations.StepsAlwaysComplete := by
  refine ⟨engineStep_completes, fun s => ?_⟩
  obtain ⟨c, -, h⟩ | ⟨e, n, -, -, h⟩ | ⟨-, -, h⟩ := step_agents s
  · obtain ⟨t, ht, -⟩ := engineStep_completes c s
    exact ⟨t, h.trans ht⟩
  · exact ⟨_, h⟩
  · exact ⟨s, h⟩

/-- Settles O38: a completion with a code is no `finished` state, so it is the failed one. -/
theorem failedCommandsWriteNothing : Obligations.FailedCommandsWriteNothing := by
  intro c s t h hne
  obtain ⟨e, -, he⟩ | ⟨u, -, he⟩ := engineStep_cases c s
  · rw [he] at h; cases h; rfl
  · rw [he] at h; cases h
    exact absurd rfl hne

/-! ## The code of each command -/

theorem err_of_finished {u t : State} (h : (.next (finished u) : Out State) = .next t) (codes : List (BitVec 4)) :
    t.err = 0 ∨ t.err ∈ codes := by
  cases h; exact .inl rfl

theorem err_of_failed {e : BitVec 4} {u t : State} (h : (.next (failed e u) : Out State) = .next t)
    {codes : List (BitVec 4)} (he : e ∈ codes) : t.err = 0 ∨ t.err ∈ codes := by
  cases h; exact .inr he

/-- Settles O39: command by command, by the conditions that its meaning checks. -/
theorem commandsReportOnlyTheirCodes : Obligations.CommandsReportOnlyTheirCodes := by
  intro i s t h
  cases i with
  | nop | srst | aesSubbytes | aesInvsubbytes | aesShiftrows | aesInvshiftrows | aesMixcolumns | aesInvmixcolumns
  | aesRotword | aesSubword | gfXtime | gfMul | desIp | desFp | desSwap => cases h; exact .inl rfl
  | aesKexp =>
    cases hp : aesParams (klen s).toNat with
    | none => exact err_of_failed ((exec_aesKexp_bad hp).symm.trans h) (by decide)
    | some p => exact err_of_finished ((exec_aesKexp_ok hp).symm.trans h) _
  | desKexp =>
    rw [exec_desKexp] at h
    split at h
    · exact err_of_failed h (by decide)
    · split at h
      · exact err_of_failed h (by decide)
      · exact err_of_finished h _
  | aesAddroundkey rnd =>
    cases ha : s.akv with
    | false => exact err_of_failed ((exec_aesAddroundkey_noSchedule rnd ha).symm.trans h) (by simp [errorCodes])
    | true =>
      rcases Nat.lt_or_ge s.nr.toNat rnd.toNat with hr | hr
      · exact err_of_failed ((exec_aesAddroundkey_range ha hr).symm.trans h) (by simp [errorCodes])
      · exact err_of_finished ((exec_aesAddroundkey_ok ha hr).symm.trans h) _
  | aesEnc | aesDec | desF _ | desRound _ | desEnc | desDec =>
    simp only [exec_aesEnc, exec_aesDec, exec_desF, exec_desRound, exec_desEnc, exec_desDec] at h
    split at h
    · exact err_of_finished h _
    · exact err_of_failed h (by simp [errorCodes])
  | romRead tbl idx =>
    cases hn : romSize tbl with
    | none => exact err_of_failed ((exec_romRead_illegal hn).symm.trans h) (by simp [errorCodes])
    | some n =>
      rcases Nat.lt_or_ge idx.toNat n with hi | hi
      · exact err_of_finished ((exec_romRead_ok hn hi).symm.trans h) _
      · exact err_of_failed ((exec_romRead_range hn hi).symm.trans h) (by simp [errorCodes])

/-! ## The conditions (spec/60_exceptions.md R322 to R326) -/

theorem exec_desKexp_keyLength {s : State} (h : klen s ≠ 8) : exec .desKexp s = .next (failed 1 s) :=
  (exec_desKexp s).trans (if_pos h)

theorem exec_desKexp_unsupportedMode {s : State} (h : klen s = 8) (hd : dstrat s = 3) :
    exec .desKexp s = .next (failed 2 s) := by
  rw [exec_desKexp, if_neg (not_not_intro h), if_pos hd]

/-- Settles O16: the conditions are those of the two expansions, on the fields of CTRL. -/
theorem kexpRaisesItsErrors : Obligations.KexpRaisesItsErrors := by
  refine fun s => ⟨fun h16 h24 h32 => exec_aesKexp_bad ?_, exec_desKexp_keyLength, exec_desKexp_unsupportedMode⟩
  exact aesParams_eq_none (fun h => h16 (BitVec.eq_of_toNat_eq h)) (fun h => h24 (BitVec.eq_of_toNat_eq h))
    fun h => h32 (BitVec.eq_of_toNat_eq h)

theorem exec_aesScheduleCommand_noSchedule {i : Instr} {s : State} (hi : aesScheduleCommand i = true)
    (ha : s.akv = false) : exec i s = .next (failed 5 s) := by
  cases i with
  | aesAddroundkey rnd => exact exec_aesAddroundkey_noSchedule rnd ha
  | aesEnc => simp [exec_aesEnc, ha]
  | aesDec => simp [exec_aesDec, ha]
  | _ => cases hi

theorem exec_desScheduleCommand_noSchedule {i : Instr} {s : State} (hi : desScheduleCommand i = true)
    (hd : s.dkv = false) : exec i s = .next (failed 5 s) := by
  cases i with
  | desF k => simp [exec_desF, hd]
  | desRound k => simp [exec_desRound, hd]
  | desEnc => simp [exec_desEnc, hd]
  | desDec => simp [exec_desDec, hd]
  | _ => cases hi

/-- Settles O35: family by family. -/
theorem noScheduleIsRaised : Obligations.NoScheduleIsRaised := fun _ _ =>
  ⟨exec_aesScheduleCommand_noSchedule, exec_desScheduleCommand_noSchedule⟩

/-- Settles O36: the index is compared with NR or with the ROM's entry count, and RANGE is no code of a DES round. -/
theorem rangeIsRaised : Obligations.RangeIsRaised := by
  refine fun s => ⟨fun rnd ha hr => exec_aesAddroundkey_range ha hr, fun tbl idx n hn hi => ?_, fun k t h => ?_⟩
  · have hsize : romSize tbl = some n := by simpa using romSize_of_mem_romCounts _ hn
    exact exec_romRead_range hsize hi
  · have hcodes : t.err = 0 ∨ t.err ∈ [4, 5] :=
      h.elim (commandsReportOnlyTheirCodes _ s t) (commandsReportOnlyTheirCodes _ s t)
    intro h6
    rw [h6] at hcodes
    exact absurd hcodes (by decide)

/-- No table has a number above 10 (spec/41_rom_tables.md R140). -/
theorem romSize_eq_none : ∀ tbl : BitVec 4, 11 ≤ tbl.toNat → romSize tbl = none := by decide

/-- Settles O40: each command checks its conditions in the order of R335. -/
theorem errorPriorityIsFixed : Obligations.ErrorPriorityIsFixed :=
  ⟨fun _ _ s h => engineStep_of_decode_error h s, fun _ h _ => exec_desKexp_keyLength h,
    fun _ rnd h => exec_aesAddroundkey_noSchedule rnd h,
    fun _ tbl _ h => exec_romRead_illegal (romSize_eq_none tbl h)⟩

end Sys2Proof.Machine
end

section
/-! The engine's turn: the step that performs the pending command, and how soon it comes (spec/70_reset_and_hazards.md R371
to R373). -/

namespace Sys2Proof.Machine

/-! ## The step at the engine's turn -/

theorem step_of_engineTurn {s : State} {c : Word} (hp : s.pending = some c) (ht : s.wait = 0 ∨ s.events = []) :
    step s = engineStep c s := by
  have hturn : engineTurn s = true := by simpa [engineTurn] using ht
  simp [step, hp, hturn]

/-- The state placed at a word has accepted the whole word and waits for nothing (log 1). -/
theorem withFetchWord_eq (s : State) (c : Word) :
    s.withFetchWord 32 c.toNat = { s with cmd := c, pending := some c, busy := true, wait := 0 } := by
  have hword : BitVec.ofNat 32 (c.toNat % 2 ^ 32) = c := by
    rw [Nat.mod_eq_of_lt c.isLt, BitVec.ofNat_toNat, BitVec.setWidth_eq]
  rw [State.withFetchWord, withCommand, hword]

/-- Settles O45: the engine's step on the pending word, by whether it decodes. -/
theorem stepRunsTheDecodedCommand : Obligations.StepRunsTheDecodedCommand := by
  refine ⟨fun s c i hp ht hd => ?_, fun s c r hp ht hd => ?_, fun s c i hd => ?_⟩
  · rw [step_of_engineTurn hp ht, engineStep_of_decode_ok hd]
  · rw [step_of_engineTurn hp ht, engineStep_of_decode_error hd]
  · rw [withFetchWord_eq, step_of_engineTurn rfl (.inl rfl), engineStep_of_decode_ok hd]

/-! ## A pending command ends -/

/-- An outside event while busy, unless it is a reset, leaves the command pending and its turns to wait: a write to CMD
among them is dropped (spec/70_reset_and_hazards.md R368). -/
theorem perform_while_busy {e : Event} (he : e ≠ .reset) {s : State} (hb : s.busy = true) :
    (perform e s).pending = s.pending ∧ (perform e s).busy = true ∧ (perform e s).wait = s.wait := by
  have hread (off width) : (hostRead off width s).2.pending = s.pending ∧ (hostRead off width s).2.busy = true
      ∧ (hostRead off width s).2.wait = s.wait := by
    obtain h | h | h := hostRead_state off width s <;> rw [h] <;> exact ⟨rfl, hb, rfl⟩
  obtain ⟨off, width, h⟩ | ⟨off, width, v, -, h⟩ | ⟨off, width, -, h⟩ | ⟨hr, -⟩ := perform_cases e s
  · rw [h]; exact hread off width
  · rw [h]
    obtain ⟨hi, -⟩ | ⟨-, h⟩ | ⟨-, h⟩ | ⟨hi, -⟩ := hostWrite_cases off width v s
    · simp [hb] at hi
    · rw [h]; exact ⟨rfl, hb, rfl⟩
    · rw [h]; exact ⟨rfl, hb, rfl⟩
    · simp [hb] at hi
  · rw [h]; exact hread off width
  · exact absurd hr he

/-- A run begins with a step. -/
theorem run_succ {M : Host.Core} {s t : M.State} (h : M.step s = .next t) (k : Nat) : M.run (k + 1) s = M.run k t := by
  rw [Host.Core.run, h]

/-- A pending command that waits for `n` more events ends within `n + 1` steps: at its engine step, or at a reset among
those events. -/
theorem pending_ends {n : Nat} {s : State} {c : Word} (hp : s.pending = some c) (hb : s.busy = true) (hw : s.wait = n) :
    ∃ k t, k ≤ n + 1 ∧ core.run k s = .next t ∧ t.pending = none ∧ t.busy = false := by
  induction n generalizing s with
  | zero =>
    obtain ⟨t, ht, hdone⟩ := engineStep_completes c s
    exact ⟨1, t, le_rfl, run_succ (M := core) ((step_of_engineTurn hp (.inl hw)).trans ht) 0, hdone⟩
  | succ n ih =>
    cases he : s.events with
    | nil =>
      obtain ⟨t, ht, hdone⟩ := engineStep_completes c s
      exact ⟨1, t, by omega, run_succ (M := core) ((step_of_engineTurn hp (.inr he)).trans ht) 0, hdone⟩
    | cons e rest =>
      have hs := step_of_waiting he hp hw
      by_cases hr : e = .reset
      · subst hr
        exact ⟨1, _, by omega, run_succ (M := core) hs 0, rfl, rfl⟩
      · obtain ⟨hp', hb', hw'⟩ := perform_while_busy hr (s := { s with events := rest, wait := n }) hb
        obtain ⟨k, t, hk, ht, hdone⟩ := ih (hp'.trans hp) hb' hw'
        exact ⟨k + 1, t, by omega, (run_succ (M := core) hs k).trans ht, hdone⟩

/-- Settles O47: while a command is pending the block is busy. -/
theorem pendingCommandsEnd : Obligations.PendingCommandsEnd := by
  intro s hinv hp
  obtain ⟨c, hc⟩ := Option.isSome_iff_exists.mp hp
  exact pending_ends hc (hinv.busy_pending.trans hp) rfl

end Sys2Proof.Machine
end

section
/-! The host window while busy, and the write that makes the block busy (spec/70_reset_and_hazards.md R368 to R370). -/

namespace Sys2Proof.Machine

/-- A write to a register that may be written is dropped while busy. -/
theorem hostWrite_while_busy {off : BitVec 12} {width : Nat} {s : State} (hb : s.busy = true)
    (h : ¬ (badAccess off.toNat width ∨ readOnlyOffset off.toNat)) (v : Word) : hostWrite off width v s = setOvr s := by
  rw [← writeTarget_none_iff] at h
  obtain ⟨r, hr⟩ := Option.ne_none_iff_exists'.mp h
  simp [hostWrite, hr, hb]

/-- Settles O55: a dropped write is a bus error or not. -/
theorem busyWritesAreDropped : Obligations.BusyWritesAreDropped := by
  refine fun off width v s hb => ⟨fun h => hostWrite_while_busy hb h v, fun h => ?_⟩
  rw [hostWrite_of_busError h, if_pos hb]
  rfl

/-- Settles O56: an idle write to CMD is its acceptance, which writes no more of the block than the three fields. -/
theorem idleCmdWriteIsAccepted : Obligations.IdleCmdWriteIsAccepted := fun s c hs =>
  ⟨acceptCmd c s, hostWrite_idle hs (r := .cmd) rfl c, rfl, rfl, rfl, rfl, rfl, rfl, rfl, rfl⟩

theorem hostRead_datapath_while_busy {r : Reg} (hr : r.datapath = true) {s : State} (hb : s.busy = true) :
    hostRead r.offset 32 s = (Config.busyRead s.draws, { s with draws := s.draws + 1 }) := by
  simp [hostRead, hr, hb]

/-- A register that is no datapath register reads as it is, idle or busy. -/
theorem hostRead_of_not_datapath {r : Reg} (hr : r.datapath = false) (s : State) :
    hostRead r.offset 32 s = (readReg r s, s) := by
  simp [hostRead, hr]

/-- Settles O57: each offset is its register's, and the registers are datapath registers or not. -/
theorem busyReadsOfResultsAreDraws : Obligations.BusyReadsOfResultsAreDraws := fun s hb =>
  ⟨fun _ hr => hostRead_datapath_while_busy hr hb, hostRead_of_not_datapath (r := .id) rfl s,
    hostRead_of_not_datapath (r := .ctrl) rfl s, hostRead_of_not_datapath (r := .cmd) rfl s,
    hostRead_of_not_datapath (r := .status) rfl s, hostRead_of_not_datapath (r := .opa) rfl s,
    fun i => hostRead_of_not_datapath (r := .key i) rfl s⟩

end Sys2Proof.Machine
end

section
/-! PKCS7 padding on the host (spec/48_host_padding_ecb.md R301 to R303). -/

namespace Sys2Proof.Machine

theorem blockSize_bounds (f : Family) : 0 < f.blockSize ∧ f.blockSize < 256 := by
  cases f <;> decide

/-- A message is filled up to the next multiple of the block size. -/
theorem length_pad {blockSize : Nat} (hpos : 0 < blockSize) (m : List Byte) :
    (pad blockSize m).length = blockSize * (m.length / blockSize + 1) := by
  have hmod := Nat.mod_lt m.length hpos
  have hdiv := Nat.div_add_mod m.length blockSize
  rw [pad, List.length_append, List.length_replicate, Nat.mul_succ]
  omega

/-- `n` bytes of value `n` after a message are what `unpad` drops, as far as a byte can say `n`. -/
theorem unpad_append_replicate {n : Nat} (hpos : 0 < n) (hlt : n < 256) (m : List Byte) :
    unpad (m ++ List.replicate n (BitVec.ofNat 8 n)) = m := by
  have hlast : (m ++ List.replicate n (BitVec.ofNat 8 n)).getLast? = some (BitVec.ofNat 8 n) := by
    rw [List.getLast?_append, List.getLast?_replicate, if_neg hpos.ne', Option.some_or]
  have hval : (BitVec.ofNat 8 n).toNat = n := Nat.mod_eq_of_lt hlt
  rw [unpad, hlast]
  simp [hval]

/-- The padding is one byte to a whole block, so its length fits in a byte. -/
theorem unpad_pad (f : Family) (m : List Byte) : unpad (pad f.blockSize m) = m := by
  obtain ⟨hpos, hlt⟩ := blockSize_bounds f
  have hmod := Nat.mod_lt m.length hpos
  exact unpad_append_replicate (by omega) (by omega) m

/-- Settles O58: the last byte of a padded message is the number of bytes to drop. -/
theorem unpadUndoesPad : Obligations.UnpadUndoesPad := fun f m => ⟨unpad_pad f m, length_pad (blockSize_bounds f).1 m⟩

end Sys2Proof.Machine
end

section
/-! Blocks of data as vectors of words: their bytes, and a byte string as its blocks (spec/48_host_padding_ecb.md R305,
spec/00_scope.md R12, R14). -/

namespace Sys2Proof.Machine

/-! ## Words and their bytes -/

theorem bytesToWords_flatMap_wordBytes (ws : List Word) : bytesToWords (ws.flatMap wordBytes) = ws := by
  induction ws with
  | nil => rfl
  | cons w ws ih =>
    have hword : byteOf w 0 ++ byteOf w 1 ++ byteOf w 2 ++ byteOf w 3 = w := packWord_byteOf w
    simp only [List.flatMap_cons, wordBytes, List.cons_append, List.nil_append, bytesToWords, hword, ih]

theorem wordBytes_packWord (b : Fin 4 → Byte) : wordBytes (packWord b) = [b 0, b 1, b 2, b 3] := by
  simp [wordBytes]

theorem length_flatMap_wordBytes (ws : List Word) : (ws.flatMap wordBytes).length = 4 * ws.length := by
  induction ws with
  | nil => rfl
  | cons w ws ih => rw [List.flatMap_cons, List.length_append, ih]; simp [wordBytes]; omega

/-- The bytes of a block's words, in order. -/
def blockBytes {n : Nat} (v : Vector Word n) : List Byte := v.toList.flatMap wordBytes

@[simp] theorem length_blockBytes {n : Nat} (v : Vector Word n) : (blockBytes v).length = 4 * n := by
  rw [blockBytes, length_flatMap_wordBytes, Vector.length_toList]

@[simp] theorem bytesToWords_blockBytes {n : Nat} (v : Vector Word n) : bytesToWords (blockBytes v) = v.toList :=
  bytesToWords_flatMap_wordBytes v.toList

/-- Every `4 * n` bytes are the bytes of `n` words. -/
theorem exists_words {n : Nat} {d : List Byte} (h : d.length = 4 * n) :
    ∃ ws : List Word, ws.length = n ∧ d = ws.flatMap wordBytes := by
  induction n generalizing d with
  | zero => exact ⟨[], rfl, List.length_eq_zero_iff.mp h⟩
  | succ n ih =>
    match d, h with
    | a :: b :: c :: e :: d, h =>
      obtain ⟨ws, hlen, rfl⟩ := ih (d := d) (by simp at h; omega)
      refine ⟨packWord ![a, b, c, e] :: ws, by simp [hlen], ?_⟩
      rw [List.flatMap_cons, wordBytes_packWord]
      rfl

/-! ## A byte string as its blocks -/

theorem exists_block {n : Nat} {d : List Byte} (h : d.length = 4 * n) : ∃ v : Vector Word n, d = blockBytes v := by
  obtain ⟨ws, rfl, rfl⟩ := exists_words h
  exact ⟨⟨ws.toArray, by simp⟩, by simp [blockBytes]⟩

/-- A byte string of `q` times a block's length is the bytes of `q` blocks. -/
theorem exists_blocks (n : Nat) {q : Nat} {d : List Byte} (h : d.length = 4 * n * q) :
    ∃ vs : List (Vector Word n), vs.length = q ∧ d = vs.flatMap blockBytes := by
  induction q generalizing d with
  | zero => exact ⟨[], rfl, List.length_eq_zero_iff.mp h⟩
  | succ q ih =>
    rw [Nat.mul_succ] at h
    obtain ⟨v, hv⟩ := exists_block (n := n) (d := d.take (4 * n)) (by simp; omega)
    obtain ⟨vs, hlen, hvs⟩ := ih (d := d.drop (4 * n)) (by simp; omega)
    refine ⟨v :: vs, by simp [hlen], ?_⟩
    rw [List.flatMap_cons, ← hv, ← hvs, List.take_append_drop]

theorem length_flatMap_blockBytes {n : Nat} (vs : List (Vector Word n)) :
    (vs.flatMap blockBytes).length = 4 * n * vs.length := by
  induction vs with
  | nil => rfl
  | cons v vs ih => rw [List.flatMap_cons, List.length_append, ih, length_blockBytes, List.length_cons]; ring

theorem splitBlocks_append {blockSize : Nat} (hpos : 0 < blockSize) {b : List Byte} (hb : b.length = blockSize)
    (d : List Byte) : splitBlocks blockSize (b ++ d) = b :: splitBlocks blockSize d := by
  subst hb
  have hcount : (b ++ d).length / b.length = d.length / b.length + 1 := by
    rw [List.length_append, Nat.add_div_left _ hpos]
  have hlater (j : Nat) : (b ++ d).drop ((j + 1) * b.length) = d.drop (j * b.length) := by
    rw [Nat.succ_mul, Nat.add_comm, List.drop_append]
    simp
  rw [splitBlocks, hcount, List.range_succ_eq_map, List.map_cons, List.map_map]
  simp [splitBlocks, Function.comp_def, hlater]

/-- Blocks put one after another are found again by the split. -/
theorem splitBlocks_flatMap_blockBytes {n : Nat} (hn : 0 < n) (vs : List (Vector Word n)) :
    splitBlocks (4 * n) (vs.flatMap blockBytes) = vs.map blockBytes := by
  induction vs with
  | nil => simp [splitBlocks]
  | cons v vs ih => rw [List.flatMap_cons, splitBlocks_append (by omega) (length_blockBytes v), ih, List.map_cons]

end Sys2Proof.Machine
end

section
/-! The driver on an idle block with a valid schedule: it maps each block through the family's cipher, so decryption
undoes encryption (spec/48_host_padding_ecb.md R305 to R309). -/

namespace Sys2Proof.Machine

/-! ## The data registers of a family -/

/-- The number of words of a block: STATE[0..3], or DSTATE[0..1]. -/
def Family.words : Family → Nat
  | .aes => 4
  | .des => 2

theorem blockSize_eq_words (f : Family) : f.blockSize = 4 * f.words := by cases f <;> rfl

theorem words_pos (f : Family) : 0 < f.words := by cases f <;> decide

/-- The family's data registers. -/
def Family.data (f : Family) (s : State) : Vector Word f.words :=
  match f with
  | .aes => s.state
  | .des => s.dstate

/-- `s` with other values in the family's data registers. -/
def Family.withData (f : Family) (v : Vector Word f.words) (s : State) : State :=
  match f with
  | .aes => { s with state := v }
  | .des => { s with dstate := v }

@[simp] theorem withData_busy (f : Family) (v : Vector Word f.words) (s : State) : (f.withData v s).busy = s.busy := by
  cases f <;> rfl

@[simp] theorem withData_schedules (f : Family) (v : Vector Word f.words) (s : State) :
    (f.withData v s).schedules = s.schedules := by
  cases f <;> rfl

@[simp] theorem data_withData (f : Family) (v : Vector Word f.words) (s : State) : f.data (f.withData v s) = v := by
  cases f <;> rfl

@[simp] theorem data_finished (f : Family) (s : State) : f.data (finished s) = f.data s := by cases f <;> rfl

@[simp] theorem data_acceptCmd (f : Family) (c : Word) (s : State) : f.data (acceptCmd c s) = f.data s := by
  cases f <;> rfl

theorem columns_eta (st : Vector Word 4) : columns (fun c => st[c]) = st := state_ext fun c => columns_get _ c

theorem set_columns (st : Vector Word 4) (f : Fin 4 → Word) :
    (((st.set 0 (f 0)).set 1 (f 1)).set 2 (f 2)).set 3 (f 3) = columns f := by
  apply state_ext
  intro c
  fin_cases c <;> simp [columns]

theorem set_halves (d : Vector Word 2) (l r : Word) : (d.set 0 l).set 1 r = halves l r := by
  apply Vector.ext
  intro i hi
  interval_cases i <;> simp [halves]

/-- The registers of a block hold the words of its data, in block order. -/
theorem map_readReg_regs (f : Family) (s : State) : f.regs.map (readReg · s) = (f.data s).toList := by
  cases f with
  | aes => exact congrArg Vector.toList (columns_eta s.state)
  | des => exact congrArg Vector.toList (halves_eta s.dstate)

/-- No data register is read-only, and none is CMD. -/
theorem regs_writable (f : Family) : ∀ r ∈ f.regs, r.readOnly = false ∧ r ≠ .cmd := by
  cases f <;> decide

theorem storeWords_state (v : Vector Word 4) {s : State} (hs : s.busy = false) :
    storeWords (Family.aes.regs.zip v.toList) s = { s with state := v } := by
  rw [storeWords_idle _ s hs fun p hp => regs_writable .aes _ (List.of_mem_zip hp).1, ← columns_eta v]
  exact congrArg (fun st => { s with state := st }) (set_columns s.state fun c => v[c])

theorem storeWords_dstate (v : Vector Word 2) {s : State} (hs : s.busy = false) :
    storeWords (Family.des.regs.zip v.toList) s = { s with dstate := v } := by
  rw [storeWords_idle _ s hs fun p hp => regs_writable .des _ (List.of_mem_zip hp).1, ← halves_eta v]
  exact congrArg (fun d => { s with dstate := d }) (set_halves s.dstate v[0] v[1])

/-- The registers are written one by one, each its own word. -/
theorem loadBlock_blockBytes (f : Family) (v : Vector Word f.words) {s : State} (hs : s.busy = false) :
    loadBlock f.regs (blockBytes v) s = f.withData v s := by
  rw [loadBlock, bytesToWords_blockBytes]
  cases f with
  | aes => exact storeWords_state v hs
  | des => exact storeWords_dstate v hs

/-- The registers are read in block order. -/
theorem readBlock_regs (f : Family) {s : State} (hs : s.busy = false) : readBlock f.regs s = blockBytes (f.data s) := by
  simp only [readBlock, hostRead_idle hs, blockBytes, ← map_readReg_regs, List.flatMap_map]

/-! ## The family's cipher -/

/-- The family's schedule is valid. -/
def Family.valid (f : Family) (k : Schedules) : Bool :=
  match f with
  | .aes => k.akv
  | .des => k.dkv

/-- DSTATE with its two halves mapped as one block. -/
def mapHalves (cipher : Block64 → Block64) (d : Vector Word 2) : Vector Word 2 := splitData (cipher (d[0] ++ d[1]))

theorem mapHalves_cancel {enc dec : Block64 → Block64} (h : ∀ x, dec (enc x) = x) (d : Vector Word 2) :
    mapHalves dec (mapHalves enc d) = d := by
  rw [mapHalves, mapHalves, splitData_append, h, splitData_words, halves_eta]

/-- What the family's encryption command makes of a block, under the schedules `k`. -/
def Family.encData (f : Family) (k : Schedules) : Vector Word f.words → Vector Word f.words :=
  match f with
  | .aes => aesCipher k.w k.nr.toNat
  | .des => mapHalves (desCipher k.dstratL k.dk)

/-- What the family's decryption command makes of a block, under the schedules `k`. -/
def Family.decData (f : Family) (k : Schedules) : Vector Word f.words → Vector Word f.words :=
  match f with
  | .aes => aesInvCipher k.w k.nr.toNat
  | .des => mapHalves (desInvCipher k.dstratL k.dk)

theorem decData_encData (f : Family) (k : Schedules) (v : Vector Word f.words) : f.decData k (f.encData k v) = v := by
  cases f with
  | aes => exact aesInvCipher_aesCipher k.w k.nr.toNat v
  | des => exact mapHalves_cancel (desInvCipher_desCipher k.dstratL k.dk) v

/-- The command `i` replaces the family's data by `g` of it in every state that holds the schedules `k`. -/
def Family.Maps (f : Family) (k : Schedules) (i : Instr) (g : Vector Word f.words → Vector Word f.words) : Prop :=
  i.wf = true ∧ ∀ s : State, s.schedules = k → exec i s = .next (finished (f.withData (g (f.data s)) s))

theorem maps_encCommand {f : Family} {k : Schedules} (hk : f.valid k = true) : f.Maps k f.encCommand (f.encData k) := by
  cases f with
  | aes => exact ⟨rfl, fun s hs => by subst hs; exact exec_aesEnc_ok hk⟩
  | des => exact ⟨rfl, fun s hs => by subst hs; exact exec_desEnc_ok hk⟩

theorem maps_decCommand {f : Family} {k : Schedules} (hk : f.valid k = true) : f.Maps k f.decCommand (f.decData k) := by
  cases f with
  | aes => exact ⟨rfl, fun s hs => by subst hs; exact exec_aesDec_ok hk⟩
  | des => exact ⟨rfl, fun s hs => by subst hs; exact exec_desDec_ok hk⟩

/-! ## The driver -/

/-- The block is idle and holds the schedules `k`. -/
def IdleWith (k : Schedules) (s : State) : Prop := s.busy = false ∧ s.schedules = k

/-- A command that leaves the schedules leaves the block idle with them. -/
theorem idleWith_finished {k : Schedules} {s : State} (h : s.schedules = k) : IdleWith k (finished s) := ⟨rfl, h⟩

section
variable {f : Family} {k : Schedules} {i : Instr} {g : Vector Word f.words → Vector Word f.words} {s : State}

/-- One block: its data is loaded, the command maps it, and it is read back. -/
theorem driveBlock_maps (hi : f.Maps k i g) (hs : IdleWith k s) (v : Vector Word f.words) :
    ∃ t, driveBlock f i (blockBytes v) s = .ok (blockBytes (g v), t) ∧ IdleWith k t := by
  obtain ⟨hwf, hexec⟩ := hi
  obtain ⟨hb, hk⟩ := hs
  have hload : (f.withData v s).busy = false := (withData_busy f v s).trans hb
  have hkept : (acceptCmd (encode i) (f.withData v s)).schedules = k := (withData_schedules f v s).trans hk
  have hrun := (runCommand_eq_exec hwf hload).trans (hexec _ hkept)
  rw [data_acceptCmd, data_withData] at hrun
  refine ⟨_, ?_, idleWith_finished ((withData_schedules f (g v) _).trans hkept)⟩
  rw [driveBlock, loadBlock_blockBytes f v hb, runChecked_of_finished hrun]
  simp only [readBlock_regs f (finished_busy _), data_finished, data_withData]

theorem driveBlocks_maps (hi : f.Maps k i g) (hs : IdleWith k s) (vs : List (Vector Word f.words)) :
    ∃ t, driveBlocks f i (vs.map blockBytes) s = .ok ((vs.map g).flatMap blockBytes, t) ∧ IdleWith k t := by
  induction vs generalizing s with
  | nil => exact ⟨s, rfl, hs⟩
  | cons v vs ih =>
    obtain ⟨t, ht, hidle⟩ := driveBlock_maps hi hs v
    obtain ⟨u, hu, hidle'⟩ := ih hidle
    refine ⟨u, ?_, hidle'⟩
    simp only [List.map_cons, List.flatMap_cons, driveBlocks, ht, hu]

/-- The driver on a whole string of blocks. -/
theorem driveBlocks_splitBlocks (hi : f.Maps k i g) (hs : IdleWith k s) (vs : List (Vector Word f.words)) :
    ∃ t, driveBlocks f i (splitBlocks f.blockSize (vs.flatMap blockBytes)) s = .ok ((vs.map g).flatMap blockBytes, t)
      ∧ IdleWith k t := by
  rw [blockSize_eq_words, splitBlocks_flatMap_blockBytes (words_pos f)]
  exact driveBlocks_maps hi hs vs

end

/-- Settles O59: the padded message is a string of blocks, each is encrypted and decrypted back, and `unpad` undoes
`pad`. -/
theorem messagesSurviveTheRoundTrip : Obligations.MessagesSurviveTheRoundTrip := by
  intro f m s hb _ haes hdes
  have hk : f.valid s.schedules = true := by
    cases f with
    | aes => exact haes rfl
    | des => exact hdes rfl
  have hpadded : (pad f.blockSize m).length = 4 * f.words * (m.length / f.blockSize + 1) := by
    rw [length_pad (blockSize_bounds f).1, blockSize_eq_words]
  obtain ⟨vs, hlen, hvs⟩ := exists_blocks f.words hpadded
  obtain ⟨t, henc, hidle⟩ := driveBlocks_splitBlocks (maps_encCommand hk) ⟨hb, rfl⟩ vs
  obtain ⟨u, hdec, -⟩ := driveBlocks_splitBlocks (maps_decCommand hk) hidle (vs.map (f.encData s.schedules))
  have hback : (vs.map (f.encData s.schedules)).map (f.decData s.schedules) = vs := by
    simp [Function.comp_def, decData_encData]
  have hcipher : ((vs.map (f.encData s.schedules)).flatMap blockBytes).length
      = f.blockSize * (m.length / f.blockSize + 1) := by
    rw [length_flatMap_blockBytes, List.length_map, hlen, ← blockSize_eq_words]
  refine ⟨_, t, u, ?_, ?_, hcipher⟩
  · rw [hostEncrypt, hvs, henc]
  · rw [hostDecrypt, hcipher, Nat.mul_mod_right, hdec, hback, ← hvs]
    exact congrArg (fun d => Except.ok (d, u)) (unpad_pad f m)

end Sys2Proof.Machine
end
